-- ==== Sys2Proof/Word.lean ====
section
/-! DEFINITION. The widths of the block's values, the four-word request descriptor and the transmission mode. -/

namespace Sys2Proof

/-- One byte: a frame, a script byte, a host-memory byte. -/
abbrev Byte := BitVec 8

/-- A 16-bit value: a coordinate, a packed RGB565 colour, a glyph row (00 R7). -/
abbrev Half := BitVec 16

/-- A 32-bit register or descriptor word (00 R7). -/
abbrev Word := BitVec 32

/-- How a request sends its data bursts: `MODE`, bit 8 of `W0` (30 R100, R102). -/
inductive Mode where
  /-- `MODE = 0`: the sequencer sends each byte itself. -/
  | byte
  /-- `MODE = 1`: the DMA engine sends each burst. -/
  | burst
  deriving DecidableEq, Repr, Inhabited

/-- A request descriptor: the four words of `REQ[0..3]` or `LREQ[0..3]` (30 R100). -/
structure Desc where
  w0 : Word
  w1 : Word
  w2 : Word
  w3 : Word
  deriving DecidableEq, Repr, Inhabited

/-- The all-zero descriptor, the reset value of `REQ` and `LREQ` (10 R56). -/
def Desc.zero : Desc := ⟨0, 0, 0, 0⟩

end Sys2Proof
end

