-- ==== Sys2Proof/Syntax.lean ====
section
/-! DEFINITION. The sixteen requests of the block (30 R107), each with its `MODE` and the operands of its format (30 R105). -/

namespace Sys2Proof

/-- One request. Every operand is unsigned and has its field's width (30 R106), so a term of this type is always encodable.
`MODE` is legal in every request (30 R102). -/
inductive Instr where
  /-- SELECT, OP 0x01, format N: drive chip-select low (40 R142). -/
  | select (mode : Mode)
  /-- UNSELECT, OP 0x02, format N: drive chip-select high (40 R143). -/
  | unselect (mode : Mode)
  /-- WRCMD, OP 0x03, format I8: send one command byte (40 R144). -/
  | wrcmd (mode : Mode) (opc : Byte)
  /-- WRDATA, OP 0x04, format M: send a host-memory buffer as data bytes (40 R145). -/
  | wrdata (mode : Mode) (addr len : Word)
  /-- SETWIN, OP 0x05, format W: select an address window (42 R182). -/
  | setwin (mode : Mode) (x0 y0 x1 y1 : Half)
  /-- INIT, OP 0x06, format N: reset the panel and run every command script (41 R160). -/
  | init (mode : Mode)
  /-- DRAW_PIXEL, OP 0x10, format P (43 R193). -/
  | drawPixel (mode : Mode) (x y color : Half)
  /-- FILL_RECT, OP 0x11, format R: one pixel per burst (43 R194). -/
  | fillRect (mode : Mode) (x y w h color : Half)
  /-- FILL_RECT_FAST, OP 0x12, format R: one scanline per burst (43 R195). -/
  | fillRectFast (mode : Mode) (x y w h color : Half)
  /-- DRAW_IMAGE, OP 0x13, format G: blit a pixel buffer from host memory (43 R197). -/
  | drawImage (mode : Mode) (x y w h : Half) (addr : Word)
  /-- WRITE_STRING, OP 0x14, format S (43 R200). -/
  | writeString (mode : Mode) (font : Byte) (x y fg bg : Half) (addr : Word)
  /-- FILL_SCREEN, OP 0x15, format C (43 R198). -/
  | fillScreen (mode : Mode) (color : Half)
  /-- FILL_SCREEN_FAST, OP 0x16, format C (43 R199). -/
  | fillScreenFast (mode : Mode) (color : Half)
  /-- INVERT, OP 0x17, format IB: colour inversion on or off (44 R230). -/
  | invert (mode : Mode) (on : Bool)
  /-- SET_GAMMA, OP 0x18, format I8 (44 R231). -/
  | setGamma (mode : Mode) (curve : Byte)
  /-- COLOR565, OP 0x20, format K: pack an 8-bit RGB triple (45 R240). -/
  | color565 (mode : Mode) (r g b : Byte)
  deriving DecidableEq, Repr

end Sys2Proof
end

