-- ==== Sys2Proof/WellFormed.lean ====
section
/-! DEFINITION. Which four words spell a request, said field by field from 30 R101, R103, R104 and R109.

A term of `Instr` needs no check: its operand types have the widths of their fields.
What can be ill-formed is a descriptor. `Decode.lean` decodes by the masks of 30 R107 instead,
so that the two readings can be held against each other. -/

namespace Sys2Proof

/-- `OP = W0[7:0]` is one of the assigned operation codes (30 R101, R108). -/
def Desc.opAssigned (d : Desc) : Bool :=
  let op := (d.w0.extractLsb' 0 8).toNat
  (0x01 ≤ op && op ≤ 0x06) || (0x10 ≤ op && op ≤ 0x18) || op == 0x20

/-- `W0[15:9]` and `W0[31:24]` are 0 (30 R103). -/
def Desc.reservedZero (d : Desc) : Bool :=
  d.w0.extractLsb' 9 7 == 0 && d.w0.extractLsb' 24 8 == 0

/-- `IMM8 = W0[23:16]` is free in WRCMD, SET_GAMMA and WRITE_STRING, one bit in INVERT, and 0 in every other
request (30 R104). -/
def Desc.imm8Legal (d : Desc) : Bool :=
  let op := (d.w0.extractLsb' 0 8).toNat
  if op == 0x03 || op == 0x18 || op == 0x14 then true
  else if op == 0x17 then d.w0.extractLsb' 17 7 == 0
  else d.w0.extractLsb' 16 8 == 0

/-- The zero fields of `W1`, `W2` and `W3` (30 R105, R109). -/
def Desc.unusedZero (d : Desc) : Bool :=
  let op := (d.w0.extractLsb' 0 8).toNat
  if op == 0x04 || op == 0x05 then d.w3 == 0
  else if op == 0x10 then d.w2 == 0 && d.w3.extractLsb' 16 16 == 0
  else if op == 0x11 || op == 0x12 then d.w3.extractLsb' 16 16 == 0
  else if op == 0x13 || op == 0x14 then true
  else if op == 0x15 || op == 0x16 then d.w1 == 0 && d.w2 == 0 && d.w3.extractLsb' 16 16 == 0
  else if op == 0x20 then d.w1.extractLsb' 24 8 == 0 && d.w2 == 0 && d.w3 == 0
  else d.w1 == 0 && d.w2 == 0 && d.w3 == 0

/-- The four words spell a request: none of the conditions of 30 R108 makes them illegal. -/
def Desc.wellFormed (d : Desc) : Bool :=
  d.opAssigned && d.reservedZero && d.imm8Legal && d.unusedZero

end Sys2Proof
end

