-- ==== Sys2Proof/Decode.lean ====
section
/-! DEFINITION. The decoder (30 R107 to R111) and, after it, the encoder of the same formats (30 R105). -/

namespace Sys2Proof

/-- The operand formats of 30 R105. -/
inductive Format where
  | N | I8 | IB | M | W | P | R | G | C | S | K
  deriving DecidableEq, Repr

/-- Why a descriptor decodes to no request (30 R108). Each raises `ILLEGAL_REQUEST` (60 R252). -/
inductive DecodeError where
  /-- `OP` is none of the opcode map's. -/
  | unassignedOp (op : Byte)
  /-- `W0 & mask` is not `match`: a reserved bit of `W0` is set, or `IMM8` is nonzero where it must be 0. -/
  | reservedBits (op : Byte)
  /-- A zero field of `W1`, `W2` or `W3` is not 0 (30 R109). -/
  | nonzeroField (op : Byte)
  deriving DecidableEq, Repr

/-- `OP = W0[7:0]` (30 R101). -/
def Desc.op (d : Desc) : Byte := d.w0.extractLsb' 0 8

/-- `MODE = W0[8]` (30 R102). -/
def Desc.mode (d : Desc) : Mode := if d.w0.getLsbD 8 then .burst else .byte

/-- `IMM8 = W0[23:16]` (30 R104). -/
def Desc.imm8 (d : Desc) : Byte := d.w0.extractLsb' 16 8

/-- Bits 15..0 of an operand word. -/
def loHalf (w : Word) : Half := w.extractLsb' 0 16

/-- Bits 31..16 of an operand word. -/
def hiHalf (w : Word) : Half := w.extractLsb' 16 16

/-- Byte `k` of an operand word: bits `8k+7 .. 8k`. -/
def byteAt (w : Word) (k : Nat) : Byte := w.extractLsb' (8 * k) 8

/-- `ZeroFieldsOK(fmt, W1, W2, W3)` (30 R109). -/
def Format.zeroFieldsOK (f : Format) (d : Desc) : Bool :=
  match f with
  | .N | .I8 | .IB => d.w1 == 0 && d.w2 == 0 && d.w3 == 0
  | .M | .W => d.w3 == 0
  | .P => d.w2 == 0 && hiHalf d.w3 == 0
  | .R => hiHalf d.w3 == 0
  | .G | .S => true
  | .C => d.w1 == 0 && d.w2 == 0 && hiHalf d.w3 == 0
  | .K => byteAt d.w1 3 == 0 && d.w2 == 0 && d.w3 == 0

/-- One row of the opcode map (30 R107), with the request its operands make (30 R104, R105). -/
structure OpRow where
  op   : Byte
  fmt  : Format
  mask : Word
  pat  : Word
  make : Desc → Instr

/-- The opcode map of 30 R107, in the table's order. -/
def opMap : List OpRow :=
  [ ⟨0x01, .N, 0xFFFFFEFF, 0x00000001, fun d => .select d.mode⟩,
    ⟨0x02, .N, 0xFFFFFEFF, 0x00000002, fun d => .unselect d.mode⟩,
    ⟨0x03, .I8, 0xFF00FEFF, 0x00000003, fun d => .wrcmd d.mode d.imm8⟩,
    ⟨0x04, .M, 0xFFFFFEFF, 0x00000004, fun d => .wrdata d.mode d.w1 d.w2⟩,
    ⟨0x05, .W, 0xFFFFFEFF, 0x00000005,
      fun d => .setwin d.mode (loHalf d.w1) (hiHalf d.w1) (loHalf d.w2) (hiHalf d.w2)⟩,
    ⟨0x06, .N, 0xFFFFFEFF, 0x00000006, fun d => .init d.mode⟩,
    ⟨0x10, .P, 0xFFFFFEFF, 0x00000010,
      fun d => .drawPixel d.mode (loHalf d.w1) (hiHalf d.w1) (loHalf d.w3)⟩,
    ⟨0x11, .R, 0xFFFFFEFF, 0x00000011,
      fun d => .fillRect d.mode (loHalf d.w1) (hiHalf d.w1) (loHalf d.w2) (hiHalf d.w2) (loHalf d.w3)⟩,
    ⟨0x12, .R, 0xFFFFFEFF, 0x00000012,
      fun d => .fillRectFast d.mode (loHalf d.w1) (hiHalf d.w1) (loHalf d.w2) (hiHalf d.w2) (loHalf d.w3)⟩,
    ⟨0x13, .G, 0xFFFFFEFF, 0x00000013,
      fun d => .drawImage d.mode (loHalf d.w1) (hiHalf d.w1) (loHalf d.w2) (hiHalf d.w2) d.w3⟩,
    ⟨0x14, .S, 0xFF00FEFF, 0x00000014,
      fun d => .writeString d.mode d.imm8 (loHalf d.w1) (hiHalf d.w1) (loHalf d.w2) (hiHalf d.w2) d.w3⟩,
    ⟨0x15, .C, 0xFFFFFEFF, 0x00000015, fun d => .fillScreen d.mode (loHalf d.w3)⟩,
    ⟨0x16, .C, 0xFFFFFEFF, 0x00000016, fun d => .fillScreenFast d.mode (loHalf d.w3)⟩,
    ⟨0x17, .IB, 0xFFFEFEFF, 0x00000017, fun d => .invert d.mode (d.w0.getLsbD 16)⟩,
    ⟨0x18, .I8, 0xFF00FEFF, 0x00000018, fun d => .setGamma d.mode d.imm8⟩,
    ⟨0x20, .K, 0xFFFFFEFF, 0x00000020,
      fun d => .color565 d.mode (byteAt d.w1 0) (byteAt d.w1 1) (byteAt d.w1 2)⟩ ]

/-- The decode function, total on any four words (30 R111). -/
def decode (d : Desc) : Except DecodeError Instr :=
  match opMap.find? (fun r => r.op == d.op) with
  | none => .error (.unassignedOp d.op)
  | some r =>
    if d.w0 &&& r.mask != r.pat then .error (.reservedBits d.op)
    else if !r.fmt.zeroFieldsOK d then .error (.nonzeroField d.op)
    else .ok (r.make d)

/-- `W0` from its fields (30 R100): reserved, `IMM8`, reserved, `MODE`, `OP`. -/
def w0Of (op : Byte) (mode : Mode) (imm8 : Byte) : Word :=
  (0 : BitVec 8) ++ imm8 ++ (0 : BitVec 7) ++ BitVec.ofBool (mode == .burst) ++ op

/-- An operand word of two 16-bit fields, `lo` in bits 15..0 and `hi` in bits 31..16 (30 R105). -/
def pair (lo hi : Half) : Word := hi ++ lo

/-- An operand word of one 16-bit field in bits 15..0 (30 R105). -/
def single (lo : Half) : Word := pair lo 0

/-- The descriptor of a request (30 R105, R107). -/
def encode : Instr → Desc
  | .select m => ⟨w0Of 0x01 m 0, 0, 0, 0⟩
  | .unselect m => ⟨w0Of 0x02 m 0, 0, 0, 0⟩
  | .wrcmd m opc => ⟨w0Of 0x03 m opc, 0, 0, 0⟩
  | .wrdata m addr len => ⟨w0Of 0x04 m 0, addr, len, 0⟩
  | .setwin m x0 y0 x1 y1 => ⟨w0Of 0x05 m 0, pair x0 y0, pair x1 y1, 0⟩
  | .init m => ⟨w0Of 0x06 m 0, 0, 0, 0⟩
  | .drawPixel m x y color => ⟨w0Of 0x10 m 0, pair x y, 0, single color⟩
  | .fillRect m x y w h color => ⟨w0Of 0x11 m 0, pair x y, pair w h, single color⟩
  | .fillRectFast m x y w h color => ⟨w0Of 0x12 m 0, pair x y, pair w h, single color⟩
  | .drawImage m x y w h addr => ⟨w0Of 0x13 m 0, pair x y, pair w h, addr⟩
  | .writeString m f x y fg bg addr => ⟨w0Of 0x14 m f, pair x y, pair fg bg, addr⟩
  | .fillScreen m color => ⟨w0Of 0x15 m 0, 0, 0, single color⟩
  | .fillScreenFast m color => ⟨w0Of 0x16 m 0, 0, 0, single color⟩
  | .invert m on => ⟨w0Of 0x17 m ((0 : BitVec 7) ++ BitVec.ofBool on), 0, 0, 0⟩
  | .setGamma m curve => ⟨w0Of 0x18 m curve, 0, 0, 0⟩
  | .color565 m r g b => ⟨w0Of 0x20 m 0, (0 : Byte) ++ b ++ g ++ r, 0, 0⟩

/-- The descriptor whose bits are `w`, bit 0 the least significant bit of `W0`, the bits from `nbits` on being 0. -/
def Desc.ofBits (nbits w : Nat) : Desc :=
  let v := w % 2 ^ nbits
  ⟨BitVec.ofNat 32 v, BitVec.ofNat 32 (v / 2 ^ 32), BitVec.ofNat 32 (v / 2 ^ 64), BitVec.ofNat 32 (v / 2 ^ 96)⟩

/-- The request the decoder reads from a descriptor given as a number (the opcode table's bit numbering). -/
def decodeTableWord (nbits w : Nat) : Option Instr :=
  match decode (Desc.ofBits nbits w) with
  | .ok i => some i
  | .error _ => none

end Sys2Proof
end

