-- ==== Sys2Proof/Config.lean ====
section
/-! DEFINITION. What the platform fixes before power-on (00 R7), and the values the spec leaves free. -/

namespace Sys2Proof

/-- `IMAGE_CLIP_MODE`: what DRAW_IMAGE does with a partly off-panel rectangle (00 R7, 43 R197, C3). -/
inductive ClipMode where
  | skip
  | crop
  deriving DecidableEq, Repr, Inhabited

/-- One font of the font ROM (00 R7 `FONTS`, 20 R74).
`rows` lists `((c, i), GLYPH(f, c, i))`; a row it does not list is the word 0.
Every total row function over the codes 1..255 and the rows of the cell has such a list
[DESIGN CHOICE, safe: a way of writing the parameter down, log 9]. -/
structure Font where
  width  : Nat
  height : Nat
  rows   : List ((Nat × Nat) × Half)
  deriving DecidableEq, Repr, Inhabited

/-- The parameters of 00 R7 that the spec marks OPEN. `FONT_COUNT` is the length of `fonts` (00 R8). -/
structure Config where
  /-- `BLOCK_BASE`: physical address of the register window. -/
  blockBase     : Word
  /-- `HOST_MEM_SIZE`: number of bytes of host memory. -/
  hostMemSize   : Nat
  /-- `PANEL_W`, `PANEL_H`: the panel's size in pixels. -/
  panelW        : Nat
  panelH        : Nat
  /-- `X_START`, `Y_START`: the origin offset, 0 to 65535. -/
  xStart        : Half
  yStart        : Half
  /-- `SCRIPTS`: the command scripts, in the order INIT runs them (41 R166). -/
  scripts       : List (List Byte)
  /-- `RESET_SETTLE_MS`: the settle delay of the panel reset pulse. -/
  resetSettleMs : Nat
  /-- The panel's command opcodes `OPC_*`. -/
  opcCaset      : Byte
  opcRaset      : Byte
  opcRamwr      : Byte
  opcInvon      : Byte
  opcInvoff     : Byte
  opcGamset     : Byte
  /-- `FONTS`. -/
  fonts         : List Font
  /-- `IMAGE_CLIP_MODE`. -/
  imageClipMode : ClipMode
  /-- `SPI_MODE`: clock polarity and phase; no rule reads it (D12, log 18). -/
  spiMode       : BitVec 2
  /-- `PANEL_WRAP`: a code for the panel's treatment of pixels past the window; no rule of the block reads it
  (20 R93, log 18). -/
  panelWrap     : Nat
  deriving DecidableEq, Repr, Inhabited

/-- `FONT_COUNT` (00 R8). -/
def Config.fontCount (c : Config) : Nat := c.fonts.length

/-- `DELAY_FLAG`: bit 7 of a script's argument-count byte (00 R7, 30 R121). -/
def delayFlag : Byte := 0x80

/-- `DELAY_SENTINEL`: the delay byte that means the long default delay (00 R7, 30 R122). -/
def delaySentinel : Byte := 255

/-- `LONG_DELAY_MS` (00 R7, 30 R122). -/
def longDelayMs : Nat := 500

/-- How the bus environment ends one frame (40 R141). -/
inductive BusOutcome where
  /-- The frame completes. -/
  | ok
  /-- The frame ends in a bus error. -/
  | err
  /-- The frame never completes (60 R271). -/
  | never
  deriving DecidableEq, Repr, Inhabited

/-- FREE VALUE: the outcome of the `n`-th frame offered to the bus, where `State.bus` does not give it.
The spec: "a draw the model takes under no law" (40 R141, U2) [DESIGN CHOICE, safe: log 3]. -/
opaque Config.busDraw : Nat → BusOutcome

/-- FREE VALUE: byte `k` of `LINEBUF` after a reset.
The spec: "its value at reset is unspecified" (10 R52, U13) [DESIGN CHOICE, safe: log 8]. -/
opaque Config.lineBufFill : Nat → Byte

/-- FREE VALUE: row `i` of a font's cell for character code 0, which `GLYPH` does not give: the codes are 1..255 (00 R7).
Only a host store that races with WRITE_STRING leads to it [DESIGN CHOICE, log 27]. -/
opaque Config.nulRow : Font → Nat → Half

/-- FREE VALUE: the configuration the platform supplies, before it is admitted (70 R285) [DESIGN CHOICE, safe: log 5]. -/
opaque Config.supplied : Config

end Sys2Proof
end

