-- ==== Sys2Proof/Machine/Script.lean ====
section
/-! DEFINITION. The command-script format (30 R120 to R124): parsing, well-formedness and length. -/

namespace Sys2Proof.Machine

/-- One entry of a command script: `OPCODE`, the `k` argument bytes, and the `DELAY` byte when the delay flag is set
(30 R120). -/
structure ScriptEntry where
  opcode : Byte
  args   : List Byte
  delay  : Option Byte
  deriving DecidableEq, Repr

/-- `k = ARGC[6:0]` (30 R121). -/
def argCount (argc : Byte) : Nat := (argc.extractLsb' 0 7).toNat

/-- The delay flag, `ARGC[7]` (30 R121). -/
def hasDelay (argc : Byte) : Bool := argc &&& delayFlag != 0

/-- `DelayMs(d)` (30 R122). -/
def delayMs (d : Byte) : Nat := if d = delaySentinel then longDelayMs else d.toNat

/-- Parses one entry from the front of a byte string: the entry and the bytes after it, or nothing when the
string ends inside the entry (30 R120, R123). -/
def parseEntry : List Byte → Option (ScriptEntry × List Byte)
  | opc :: argc :: rest =>
    let k := argCount argc
    if rest.length < k then none
    else if hasDelay argc then
      match rest.drop k with
      | d :: after => some (⟨opc, rest.take k, some d⟩, after)
      | [] => none
    else some (⟨opc, rest.take k, none⟩, rest.drop k)
  | _ => none

/-- Parses `n` entries in turn. -/
def parseEntries : Nat → List Byte → Option (List ScriptEntry × List Byte)
  | 0, bs => some ([], bs)
  | n + 1, bs =>
    match parseEntry bs with
    | none => none
    | some (e, rest) =>
      match parseEntries n rest with
      | none => none
      | some (es, after) => some (e :: es, after)

/-- The entries of a script, headed by its count byte, and the bytes after the last entry, which are allowed and
never read (30 R120, R123, C2). -/
def parseScript : List Byte → Option (List ScriptEntry × List Byte)
  | [] => none
  | count :: rest => parseEntries count.toNat rest

/-- The script is well-formed (30 R123). -/
def scriptWellFormed (s : List Byte) : Bool := (parseScript s).isSome

/-- The entries INIT runs of a well-formed script (41 R163). -/
def scriptEntries (s : List Byte) : List ScriptEntry :=
  match parseScript s with
  | some (es, _) => es
  | none => []

/-- The bytes one entry takes: `2 + k + (1 when flagged)` (30 R124). -/
def ScriptEntry.byteLen (e : ScriptEntry) : Nat := 2 + e.args.length + (if e.delay.isSome then 1 else 0)

/-- `ScriptLen(S)` (30 R124). -/
def scriptLen (s : List Byte) : Nat := 1 + ((scriptEntries s).map ScriptEntry.byteLen).sum

end Sys2Proof.Machine
end

