-- ==== Sys2Proof/Machine/Admit.lean ====
section
/-! DEFINITION. Which configurations are admitted (00 R7, R8), and the type of an admitted one. -/

namespace Sys2Proof.Machine

/-- `1 <= FW(f) <= 16` and `FH(f) >= 1` (00 R8). -/
def fontAdmitted (f : Font) : Bool := 1 ≤ f.width && f.width ≤ 16 && 1 ≤ f.height

/-- The configuration is admitted (00 R8), with the ranges of the table of 00 R7 [the upper bounds of
`HOST_MEM_SIZE` and `FONT_COUNT` and the alignment of `BLOCK_BASE` are R7's, DEDUCED, log 6]. -/
def configAdmitted (c : Config) : Bool :=
  1 ≤ c.panelW && c.panelW ≤ 65535 && 1 ≤ c.panelH && c.panelH ≤ 65535
    && !c.scripts.isEmpty && c.scripts.all scriptWellFormed
    && c.fonts.length ≤ 256 && c.fonts.all fontAdmitted
    && 1 ≤ c.hostMemSize && c.hostMemSize ≤ 2 ^ 32
    && c.blockBase.toNat % 64 == 0

/-- A platform: a configuration that is admitted. A configuration that is not has no run (70 R285), so the state of the
machine cannot hold one. -/
abbrev Platform := { c : Config // configAdmitted c = true }

/-- The default configuration of the spec's own vectors (95, Conventions), with the opcode values the spec names as
defaults (00 R7, G1, G2), the script of S6, the font of V-STR, and 5 for the settle delay `T`. -/
def vectorConfig : Config where
  blockBase := 0
  hostMemSize := 0x100
  panelW := 4
  panelH := 3
  xStart := 0
  yStart := 0
  scripts := [[1, 0xAB, 0x80, 10]]
  resetSettleMs := 5
  opcCaset := 0x2A
  opcRaset := 0x2B
  opcRamwr := 0x2C
  opcInvon := 0x21
  opcInvoff := 0x20
  opcGamset := 0x26
  fonts := [⟨2, 1, [((0x41, 0), 0x8000), ((0x42, 0), 0x4000)]⟩]
  imageClipMode := .skip
  spiMode := 0
  panelWrap := 0

/-- The platform of the spec's vectors. -/
def vectorPlatform : Platform := ⟨vectorConfig, by decide⟩

/-- The platform of `State.reset`: the free value `Config.supplied` when it is admitted. Nothing can be proved about it
but that it is admitted [DESIGN CHOICE, safe: log 5]. -/
def suppliedPlatform : Platform :=
  if h : configAdmitted Config.supplied = true then ⟨Config.supplied, h⟩ else vectorPlatform

end Sys2Proof.Machine
end

