-- ==== Sys2Proof/Machine/State.lean ====
section
/-! DEFINITION. The state of the machine as plain data, the reasons a step can stop, and the state after power-on. -/

namespace Sys2Proof.Machine

/-- `SEQ`, the sequencer state (10 R46). -/
inductive Seq where
  | idle
  | exec
  | halted
  deriving DecidableEq, Repr, Inhabited

/-- `PSTATE`, the panel state (10 R47). -/
inductive PState where
  | uninitialized
  | resetting
  | scriptExecuting
  | ready
  deriving DecidableEq, Repr, Inhabited

/-- `WINDOW`, the address-window register: inclusive corners in panel coordinates (10 R58). -/
structure Window where
  x0 : Half
  y0 : Half
  x1 : Half
  y1 : Half
  deriving DecidableEq, Repr, Inhabited

/-- The byte source `src` of a burst (40 R146): what `src(k)` is, `Src.byte` says. -/
inductive Src where
  /-- A byte list the sequencer holds: `{b0, b1, ...}`. -/
  | bytes (l : List Byte)
  /-- `k -> MemRead(addr + k, 1)[0]` (40 R145, 43 R197). -/
  | mem (addr : Nat)
  /-- The first `w'` pixels of each row of a `w`-pixel-wide buffer at `addr` (43 R197, `crop`). -/
  | crop (addr w w' : Nat)
  /-- `j -> LINEBUF[j]` (43 R195). -/
  | lineBuf
  deriving DecidableEq, Repr

/-- The DMA engine's state (10 R51). -/
inductive Dma where
  | idle
  | active (src : Src) (n i : Nat)
  deriving DecidableEq, Repr

/-- The delay timer's state (10 R55). -/
inductive Timer where
  | idle
  | waiting (ms : Nat)
  deriving DecidableEq, Repr

/-- One event of the wire trace (00 R14). A level is `true` for 1 (00 R13). -/
inductive Event where
  | csLow
  | csHigh
  | rstLow
  | rstHigh
  | byte (cs dc : Bool) (b : Byte)
  | delay (ms : Nat)
  deriving DecidableEq, Repr

/-- The fault causes (60 R250). -/
inductive FaultCause where
  | transport
  | illegalRequest
  | notReady
  | badOperand
  | buffer
  deriving DecidableEq, Repr

/-- The operands of a WRITE_STRING that its loop reads (43 R200). -/
structure Text where
  mode : Mode
  font : Nat
  fg   : Half
  bg   : Half
  addr : Nat
  deriving DecidableEq, Repr

/-- One step, or loop head, of a request's step list (00 R12, 10 R48). `seqStep` says what each does. -/
inductive Micro where
  /-- `SetCS(l)` (40 R140). -/
  | setCS (l : Bool)
  /-- `SetDC(l)` (40 R140). -/
  | setDC (l : Bool)
  /-- `SetRST(l)` (41 R161). -/
  | setRST (l : Bool)
  /-- `Tx(src(k))` by the sequencer (40 R141, R146). -/
  | tx (src : Src) (k : Nat)
  /-- `DONE <- 0 ; DMA <- Active(src, n, 0)`, then hold (40 R146). -/
  | dma (src : Src) (n : Nat)
  /-- `Delay(ms)` (60 R265). -/
  | delay (ms : Nat)
  /-- `PSTATE <- p` (41 R160). -/
  | setPState (p : PState)
  /-- `WINDOW <- w` (42 R180, R181). -/
  | setWindow (w : Window)
  /-- `LINEBUF[k] <- b` (43 R195). -/
  | lineByte (k : Nat) (b : Byte)
  /-- `RESULT <- v` (45 R240). -/
  | setResult (v : Word)
  /-- The loop of `StrLen` at `n` (43 R204). -/
  | strScan (t : Text) (x y n : Nat)
  /-- The loop of WRITE_STRING at `i`, with `L = len` (43 R200). -/
  | strDraw (t : Text) (len i x y : Nat) (atLineStart : Bool)
  deriving DecidableEq, Repr

/-- One access of the host (00 R6). Register accesses name a physical address and a width in bits (20 R71). -/
inductive HostOp where
  /-- A read of a register. -/
  | readReg (addr : Word) (width : Nat)
  /-- A write of a register. -/
  | writeReg (addr : Word) (width : Nat) (v : Word)
  /-- A read of one byte of host memory. -/
  | load (a : Nat)
  /-- `MemWrite(a, n, v)` (20 R76). -/
  | store (a : Nat) (bytes : List Byte)
  /-- `WAITIDLE`: read `STATUS` until `STATUS[0] = 0` (30 R127). -/
  | waitIdle
  deriving DecidableEq, Repr

/-- Who takes the next turn (00 R12: steps "interleave in any order"). -/
inductive Turn where
  /-- The block: one atomic step of the sequencer, the DMA engine or the delay timer. -/
  | block
  /-- The host: its next access, if that is not held. -/
  | host
  /-- The platform: a hardware reset (70 R280). -/
  | hwReset
  deriving DecidableEq, Repr

/-- The reasons a step of the machine stops with no next state. The block's own faults (60 R250) are NOT these:
fault entry is a next state. -/
inductive Fault where
  /-- The host loads or stores host memory at an address outside `0 .. HOST_MEM_SIZE-1` (20 R72: there is no such byte).
  Raised by `hostTurn`; safe: the model stops where the spec gives the access no meaning. -/
  | hostAccessOutsideMemory (a : Nat)
  /-- The block's next step would `MemRead` an address outside host memory (20 R75: it never does).
  Raised by `blockTurn` only, in states no doorbell leads to; safe. -/
  | blockReadOutsideMemory (a : Nat)
  deriving DecidableEq, Repr

/-- The reasons a step is given no meaning. -/
inductive Refusal where
  /-- The instruction has no meaning in the model. No arm of `exec` uses it. Safe. -/
  | notModelled (mnemonic : String)
  /-- A host register access that is not 32 bits wide at a multiple of 4 (20 R71, U7). Raised by `hostTurn`; safe. -/
  | registerAccessForm (width offset : Nat)
  /-- A host register access to an address outside the block's window (20 R70: no such register). Raised by `hostTurn`;
  safe. -/
  | outsideWindow (addr : Word)
  /-- A configuration that is not admitted (00 R8, U9). Raised by `powerOn`; safe. -/
  | configuration
  deriving DecidableEq, Repr

structure State where
  /-- The platform's configuration (00 R7), constant. -/
  cfg       : Platform
  /-- `REQ[0..3]` (10 R31). -/
  req       : Desc
  /-- `RESULT` (10 R42). -/
  result    : Word
  /-- `LREQ[0..3]` (10 R45). -/
  lreq      : Desc
  /-- `SEQ` (10 R46). -/
  seq       : Seq
  /-- `PSTATE` (10 R47). -/
  pstate    : PState
  /-- `WINDOW` (10 R58). -/
  window    : Window
  /-- The CS line: `true` is unselected (10 R50). -/
  cs        : Bool
  /-- The DC line: `true` is data (10 R50). -/
  dc        : Bool
  /-- The RST line: `false` asserts the panel reset (10 R50). -/
  rst       : Bool
  /-- `DONE` (10 R49). -/
  done      : Bool
  /-- `FAULT_CODE` (10 R53). -/
  faultCode : Byte
  /-- `FAULT_OP` (10 R53). -/
  faultOp   : Byte
  /-- The DMA engine (10 R51). -/
  dma       : Dma
  /-- `LINEBUF` (10 R52). -/
  lineBuf   : List Byte
  /-- The delay timer (10 R55). -/
  timer     : Timer
  /-- The rest of the running request's step list (10 R48); `none` before the request is decoded and when none runs. -/
  todo      : Option (List Micro)
  /-- Host memory `HM` (20 R72), in canonical form: addresses rising, no entry equal to what an unlisted byte reads. -/
  mem       : List Host.Cell
  /-- The wire trace, oldest first (00 R14, 10 R54); no step reads it. -/
  trace     : List Event
  /-- The words the host's reads returned, oldest first; no step reads it [the model's own, log 14]. -/
  seen      : List Word
  /-- The accesses the host has still to make, in order [the model's own, log 2]. -/
  host      : List HostOp
  /-- Who takes the next turns; after its end nobody interrupts the block [the model's own, log 1]. -/
  sched     : List Turn
  /-- The outcomes of the next frames; after its end `Config.busDraw` gives them [the model's own, log 3]. -/
  bus       : List BusOutcome
  /-- How many frames the bus was offered [the model's own, log 3]. -/
  draws     : Nat
  /-- The frame in flight never completes (60 R271) [the model's own, log 4]. -/
  hung      : Bool
  deriving DecidableEq, Repr

/-- `LINEBUF` after a reset: `2 * PANEL_W` bytes, each the free value (10 R52). -/
def freshLineBuf (p : Platform) : List Byte := (List.range (2 * p.val.panelW)).map Config.lineBufFill

/-- The state at power-on with platform `p` (10 R56, 70 R281): every field at its reset value, the trace empty, nothing
written in host memory and no input from outside. -/
def State.powerOn (p : Platform) : State where
  cfg := p
  req := Desc.zero
  result := 0
  lreq := Desc.zero
  seq := .idle
  pstate := .uninitialized
  window := ⟨0, 0, 0, 0⟩
  cs := true
  dc := false
  rst := true
  done := false
  faultCode := 0
  faultOp := 0
  dma := .idle
  lineBuf := freshLineBuf p
  timer := .idle
  todo := none
  mem := []
  trace := []
  seen := []
  host := []
  sched := []
  bus := []
  draws := 0
  hung := false

/-- The machine right after reset, on the supplied platform. -/
def State.reset : State := State.powerOn suppliedPlatform

/-- Power-on with a configuration: refused unless it is admitted (00 R8, 70 R285). -/
def powerOn (c : Config) : Host.Outcome State Fault Refusal :=
  if h : configAdmitted c = true then .next (State.powerOn ⟨c, h⟩) else .refused .configuration

end Sys2Proof.Machine
end

