-- ==== Sys2Proof/Machine/Operands.lean ====
section
/-! DEFINITION. What requests compute from their operands: byte order, clipping, wire coordinates, pixels, glyph bits,
colour packing and buffer ranges. -/

namespace Sys2Proof.Machine

/-- `hi(v) = v[15:8]` (00 R9). -/
def hi (v : Half) : Byte := v.extractLsb' 8 8

/-- `lo(v) = v[7:0]` (00 R9). -/
def lo (v : Half) : Byte := v.extractLsb' 0 8

/-- A 16-bit value on the wire: high byte first (20 R78). -/
def wireHalf (v : Half) : List Byte := [hi v, lo v]

/-- The wire coordinate of a panel coordinate: the origin offset added modulo 2^16 (30 R118, 42 R184). -/
def wireCoord (c origin : Half) : Half := c + origin

/-- The four argument bytes of a column- or row-address-set command (30 R118). -/
def coordArgs (c0 c1 origin : Half) : List Byte := wireHalf (wireCoord c0 origin) ++ wireHalf (wireCoord c1 origin)

/-- `Px(c)`: the two bytes of one pixel (43 R192, 30 R119). -/
def px (c : Half) : List Byte := wireHalf c

/-- `Clip(x, y, w, h)` on exact integers: the drawn width and height, or nothing when the clipped rectangle is empty
(43 R191). -/
def clip (c : Config) (x y w h : Nat) : Option (Nat × Nat) :=
  if c.panelW ≤ x ∨ c.panelH ≤ y then none
  else
    let w' := min w (c.panelW - x)
    let h' := min h (c.panelH - y)
    if w' = 0 ∨ h' = 0 then none else some (w', h')

/-- The window of a `w` by `h` rectangle at `(x, y)`, corners inclusive (43 R194). -/
def rectWindow (x y w h : Nat) : Window :=
  ⟨BitVec.ofNat 16 x, BitVec.ofNat 16 y, BitVec.ofNat 16 (x + w - 1), BitVec.ofNat 16 (y + h - 1)⟩

/-- `x0 <= x1 < PANEL_W and y0 <= y1 < PANEL_H` (42 R182, R183). -/
def Window.inPanel (w : Window) (c : Config) : Bool :=
  w.x0.toNat ≤ w.x1.toNat && w.x1.toNat < c.panelW && w.y0.toNat ≤ w.y1.toNat && w.y1.toNat < c.panelH

/-- `BufOK(a, n)`: no wrap-around at 2^32 (20 R77). -/
def bufOK (c : Config) (a n : Nat) : Bool := n == 0 || a + n ≤ c.hostMemSize

/-- Font `f` of the font ROM (20 R74). The 1 by 1 font stands only for an index that `PreCheck` refuses (60 R254). -/
def font (c : Config) (f : Nat) : Font := (c.fonts[f]?).getD ⟨1, 1, []⟩

/-- `GLYPH(f, c, i)` (00 R7, 20 R74). It is given for the codes 1..255; for code 0 the row is the free value
[DESIGN CHOICE, log 27]. -/
def glyph (f : Font) (c i : Nat) : Half := if c = 0 then Config.nulRow f i else (f.rows.lookup (c, i)).getD 0

/-- `GlyphBit(row, j) = row[15 - j]` (43 R202). -/
def glyphBit (row : Half) (j : Nat) : Bool := row.getLsbD (15 - j)

/-- The colours of one glyph cell, row by row, left to right (43 R201). -/
def glyphPixels (f : Font) (c : Nat) (fg bg : Half) : List Half :=
  (List.range f.height).flatMap fun i =>
    (List.range f.width).map fun j => if glyphBit (glyph f c i) j then fg else bg

/-- `Pack565(r, g, b) = (r[7:3] << 11) | (g[7:2] << 5) | b[7:3]` (45 R241). -/
def pack565 (r g b : Byte) : Half := r.extractLsb' 3 5 ++ g.extractLsb' 2 6 ++ b.extractLsb' 3 5

/-- The fault codes (60 R250). -/
def FaultCause.code : FaultCause → Byte
  | .transport => 0x01
  | .illegalRequest => 0x02
  | .notReady => 0x03
  | .badOperand => 0x04
  | .buffer => 0x05

end Sys2Proof.Machine
end

