-- ==== Sys2Proof/Machine/Flags.lean ====
section
/-! DEFINITION. The register views of the state: `STATUS`, `WIN0`, `WIN1`, and what a host read returns (10 R30 to R44). -/

namespace Sys2Proof.Machine

/-- The encoding of `STATUS.PSTATE` (10 R37). -/
def PState.code : PState → BitVec 2
  | .uninitialized => 0
  | .resetting => 1
  | .scriptExecuting => 2
  | .ready => 3

/-- `STATUS` (10 R34), most significant field first: reserved 0, `FAULT_OP`, `FAULT_CODE`, `DONE`, `RST`, `DC`, `CS`,
`PSTATE`, `HALTED`, `BUSY`. -/
def State.status (s : State) : Word :=
  (0 : BitVec 8) ++ s.faultOp ++ s.faultCode ++ BitVec.ofBool s.done ++ BitVec.ofBool s.rst ++ BitVec.ofBool s.dc
    ++ BitVec.ofBool s.cs ++ s.pstate.code ++ BitVec.ofBool (s.seq == .halted) ++ BitVec.ofBool (s.seq == .exec)

/-- `WIN0` reads `x0 | (y0 << 16)` (10 R43). -/
def State.win0 (s : State) : Word := s.window.y0 ++ s.window.x0

/-- `WIN1` reads `x1 | (y1 << 16)` (10 R43). -/
def State.win1 (s : State) : Word := s.window.y1 ++ s.window.x1

/-- What a host read of the register at byte offset `off` returns (10 R30). It has no side effect (20 R83). -/
def State.readReg (s : State) (off : Nat) : Word :=
  if off = 0x00 then s.req.w0
  else if off = 0x04 then s.req.w1
  else if off = 0x08 then s.req.w2
  else if off = 0x0C then s.req.w3
  else if off = 0x10 then s.status
  else if off = 0x14 then s.result
  else if off = 0x18 then s.win0
  else if off = 0x1C then s.win1
  else 0

end Sys2Proof.Machine
end

