-- ==== Sys2Proof/Machine/Ops.lean ====
section
/-! DEFINITION. The named operations: host memory, the output lines, frames, taking a fault, reset, the doorbell and
completion. -/

namespace Sys2Proof.Machine

/-- What a byte of host memory that nothing has written reads as [DESIGN CHOICE, unsafe: the spec gives no initial
contents, log 7]. -/
def Mem.blank : Byte := 0

/-- `HM[a]` (20 R75). -/
def Mem.read : List Host.Cell → Nat → Byte
  | [], _ => Mem.blank
  | (x, v) :: rest, a => if a = x then v else Mem.read rest a

/-- `HM[a] <- b` (20 R76), keeping the canonical form. -/
def Mem.write : List Host.Cell → Nat → Byte → List Host.Cell
  | [], a, b => if b = Mem.blank then [] else [(a, b)]
  | (x, v) :: rest, a, b =>
    if a < x then (if b = Mem.blank then (x, v) :: rest else (a, b) :: (x, v) :: rest)
    else if a = x then (if b = Mem.blank then rest else (a, b) :: rest)
    else (x, v) :: Mem.write rest a b

/-- `HM[a + k] <- v_k` for each byte of `bytes` (20 R76). -/
def Mem.writeBytes : List Host.Cell → Nat → List Byte → List Host.Cell
  | m, _, [] => m
  | m, a, b :: bs => Mem.writeBytes (Mem.write m a b) (a + 1) bs

/-- Every entry lies above `bound`, addresses rise, and no entry is blank. -/
def Mem.wfFrom : Nat → List Host.Cell → Bool
  | _, [] => true
  | bound, (x, v) :: rest => bound ≤ x && v != Mem.blank && Mem.wfFrom (x + 1) rest

/-- The canonical form of a memory: addresses strictly rising, no entry equal to what an unlisted byte reads as. -/
def Mem.wf (m : List Host.Cell) : Bool := Mem.wfFrom 0 m

/-- `Emit(e)` (00 R11, R14). -/
def State.emit (s : State) (e : Event) : State := { s with trace := s.trace ++ [e] }

/-- `SetCS(l)`: an event only when the level changes (40 R140, C4). -/
def State.setCS (s : State) (l : Bool) : State :=
  { s with cs := l, trace := if s.cs = l then s.trace else s.trace ++ [if l then .csHigh else .csLow] }

/-- `SetDC(l)`: never an event (40 R140). -/
def State.setDC (s : State) (l : Bool) : State := { s with dc := l }

/-- `SetRST(l)`: an event only when the level changes (41 R161). -/
def State.setRST (s : State) (l : Bool) : State :=
  { s with rst := l, trace := if s.rst = l then s.trace else s.trace ++ [if l then .rstHigh else .rstLow] }

/-- The host-memory address `src(k)` is read from, if it is read from there (40 R146, 43 R197). -/
def Src.address : Src → Nat → Option Nat
  | .mem a, k => some (a + k)
  | .crop a w w', k => some (a + 2 * (k / 2 / w' * w + k / 2 % w') + k % 2)
  | .bytes _, _ => none
  | .lineBuf, _ => none

/-- `src(k)`, evaluated in the step that sends it (40 R146). -/
def State.srcByte (s : State) : Src → Nat → Byte
  | .bytes l, k => l.getD k 0
  | .lineBuf, k => s.lineBuf.getD k 0
  | .mem a, k => Mem.read s.mem (a + k)
  | .crop a w w', k => Mem.read s.mem (a + 2 * (k / 2 / w' * w + k / 2 % w') + k % 2)

/-- The outcome of the `k`-th frame from now (40 R141). -/
def State.frame (s : State) (k : Nat) : BusOutcome :=
  match s.bus[k]? with
  | some o => o
  | none => Config.busDraw (s.draws + k)

/-- One frame has been offered to the bus. -/
def State.popFrame (s : State) : State := { s with bus := s.bus.tail, draws := s.draws + 1 }

/-- `raise Fault(code)`: fault entry, the one operation that takes a fault (60 R255). The rest of the request is
dropped. There is no return from it (60 R259): only `State.resetBlock` leaves `HALTED` (70 R284). -/
def State.raise (s : State) (c : FaultCause) : State :=
  { s.setCS true with
    faultCode := c.code
    faultOp := s.lreq.op
    dma := .idle
    seq := .halted
    todo := none
    hung := false }

/-- `Reset()` (70 R281), by either source: every piece of state to the value of 10 R56; `CsHigh` and `RstHigh` only for a
line that changes. Host memory, the configuration and what is outside the block keep their values (70 R282). -/
def State.resetBlock (s : State) : State :=
  { (s.setCS true).setRST true with
    req := Desc.zero
    result := 0
    lreq := Desc.zero
    seq := .idle
    pstate := .uninitialized
    window := ⟨0, 0, 0, 0⟩
    dc := false
    done := false
    faultCode := 0
    faultOp := 0
    dma := .idle
    lineBuf := freshLineBuf s.cfg
    timer := .idle
    todo := none
    hung := false }

/-- `Complete()`: the last step of every request that does not fault (30 R115). -/
def State.complete (s : State) : State := { s with seq := .idle, todo := none }

/-- The doorbell: a host write of `v` to `REQ_W0` while `SEQ = IDLE` (30 R113). -/
def State.doorbell (s : State) (v : Word) : State :=
  { s with req := { s.req with w0 := v }, lreq := { s.req with w0 := v }, seq := .exec, todo := none }

/-- `Tx(b)` (40 R141), and what its agent does next when the frame completes. -/
def State.tx (s : State) (b : Byte) (after : State → State) : State :=
  match s.frame 0 with
  | .ok => after (s.popFrame.emit (.byte s.cs s.dc b))
  | .err => s.popFrame.raise .transport
  | .never => { s.popFrame with hung := true }

end Sys2Proof.Machine
end

