-- ==== Sys2Proof/Machine/Sequences.lean ====
section
/-! DEFINITION. The step lists the requests share: one byte, a burst, a pixel, the window sequence, a glyph cell
(40 R146, 42 R180, 43 R192, R201). -/

namespace Sys2Proof.Machine

/-- `Tx(b)` of a byte the sequencer holds. -/
def txByte (b : Byte) : Micro := .tx (.bytes [b]) 0

/-- `Burst(src, n, mode)` (40 R146): nothing when `n = 0`; byte by byte in byte mode; one DMA burst in burst mode. -/
def burst (src : Src) (n : Nat) (mode : Mode) : List Micro :=
  if n = 0 then []
  else
    match mode with
    | .byte => (List.range n).map (Micro.tx src)
    | .burst => [.dma src n]

/-- `Burst` of a byte list. -/
def burstBytes (l : List Byte) (mode : Mode) : List Micro := burst (.bytes l) l.length mode

/-- `SetDC(0) ; Tx(opc)`: a command byte, always synchronous (40 R144, C8). -/
def command (opc : Byte) : List Micro := [.setDC false, txByte opc]

/-- `SetWindow(x0, y0, x1, y1, mode)` (42 R180); the last step writes `WINDOW` (42 R181). -/
def setWindowSteps (c : Config) (w : Window) (mode : Mode) : List Micro :=
  command c.opcCaset ++ (.setDC true :: burstBytes (coordArgs w.x0 w.x1 c.xStart) mode)
    ++ command c.opcRaset ++ (.setDC true :: burstBytes (coordArgs w.y0 w.y1 c.yStart) mode)
    ++ command c.opcRamwr ++ [.setWindow w]

/-- `Burst(Px(p), 2, mode)` for each pixel of a list (43 R192). -/
def pixelSteps (ps : List Half) (mode : Mode) : List Micro := ps.flatMap fun p => burstBytes (px p) mode

/-- `GlyphBlit(f, c, x, y, fg, bg, mode)` (43 R201). -/
def glyphSteps (c : Config) (t : Text) (ch : Byte) (x y : Nat) : List Micro :=
  let f := font c t.font
  setWindowSteps c (rectWindow x y f.width f.height) t.mode
    ++ (.setDC true :: pixelSteps (glyphPixels f ch.toNat t.fg t.bg) t.mode)

/-- One select/unselect pair around the steps of a panel request (43 R190). -/
def bracketed (steps : List Micro) : List Micro := .setCS false :: (steps ++ [.setCS true])

end Sys2Proof.Machine
end

