-- ==== Sys2Proof/Machine/Engine.lean ====
section
/-! DEFINITION. The block's atomic steps (00 R12): the DMA engine's (40 R147, R148), the delay timer's (60 R265) and the
sequencer's, and the run of a request to its end (30 R114). -/

namespace Sys2Proof.Machine

/-- One step of `StrLen` (43 R204): past the end of host memory it faults; at the NUL the string is drawn, bracketed. -/
def State.strScanStep (s : State) (rest : List Micro) (t : Text) (x y n : Nat) : State :=
  if s.cfg.val.hostMemSize ≤ t.addr + n then s.raise .buffer
  else if Mem.read s.mem (t.addr + n) = 0 then
    { s with todo := some (bracketed [.strDraw t n 0 x y false] ++ rest) }
  else { s with todo := some (.strScan t x y (n + 1) :: rest) }

/-- One turn of WRITE_STRING's loop (43 R200). `L` is kept: a character that a racing host store has turned to 0x00 since
`StrLen` scanned it does not end the string, and its cell is drawn with free rows (20 R88)
[DESIGN CHOICE, unsafe for such a race: R200's "never drawn" speaks of the string as `StrLen` found it, log 27]. -/
def State.strDrawStep (s : State) (rest : List Micro) (t : Text) (len i x y : Nat) (atLineStart : Bool) : State :=
  let f := font s.cfg.val t.font
  if len ≤ i then { s with todo := some rest }
  else
    let c := Mem.read s.mem (t.addr + i)
    let wrap := decide (s.cfg.val.panelW < x + f.width)
    let x := if wrap then 0 else x
    let y := if wrap then y + f.height else y
    let atLineStart := atLineStart || wrap
    if s.cfg.val.panelW < f.width then { s with todo := some rest }
    else if s.cfg.val.panelH < y + f.height then { s with todo := some rest }
    else if atLineStart ∧ c = 0x20 then { s with todo := some (.strDraw t len (i + 1) x y atLineStart :: rest) }
    else
      let next := Micro.strDraw t len (i + 1) (x + f.width) y false
      { s with todo := some (glyphSteps s.cfg.val t c x y ++ (next :: rest)) }

/-- One step of the sequencer: the first step `op` of its list, with `rest` to follow. -/
def State.seqStep (s : State) (op : Micro) (rest : List Micro) : State :=
  let s := { s with todo := some rest }
  match op with
  | .setCS l => s.setCS l
  | .setDC l => s.setDC l
  | .setRST l => s.setRST l
  | .tx src k => s.tx (s.srcByte src k) id
  | .dma src n => { s with done := false, dma := .active src n 0 }
  | .delay ms => { s.emit (.delay ms) with timer := .waiting ms }
  | .setPState p => { s with pstate := p }
  | .setWindow w => { s with window := w }
  | .lineByte k b => { s with lineBuf := s.lineBuf.set k b }
  | .setResult v => { s with result := v }
  | .strScan t x y n => s.strScanStep rest t x y n
  | .strDraw t len i x y a => s.strDrawStep rest t len i x y a

/-- One step of the DMA engine (40 R147): a frame, or the completion notification. A frame that ends in `Err` takes the
fault, which idles the engine and leaves `DONE` at 0 (40 R148). -/
def State.dmaStep (s : State) (src : Src) (n i : Nat) : State :=
  if i < n then s.tx (s.srcByte src i) fun s => { s with dma := .active src n (i + 1) }
  else { s with done := true, dma := .idle }

/-- The host-memory address the block's next step reads without having checked it itself. -/
def State.nextRead (s : State) : Option Nat :=
  match s.dma with
  | .active src n i => if i < n then src.address i else none
  | .idle =>
    match s.timer with
    | .waiting _ => none
    | .idle =>
      match s.todo with
      | some (.tx src k :: _) => src.address k
      | some (.strDraw t len i _ _ _ :: _) => if i < len then some (t.addr + i) else none
      | _ => none

/-- The block's next step would read outside host memory. No doorbell leads to such a state (20 R75, R77; log 12). -/
def State.badRead (s : State) : Bool :=
  match s.nextRead with
  | some a => s.cfg.val.hostMemSize ≤ a
  | none => false

/-- The block has a next atomic step: a request runs, its frame does not hang (60 R271), and it has been decoded. -/
def State.canStep (s : State) : Bool := s.seq == .exec && !s.hung && s.todo.isSome && !s.badRead

/-- The block's next atomic step. At most one of its agents has one: the sequencer holds while the DMA engine or the
delay timer runs (40 R146, 60 R265, R267). A block with no step stays as it is. -/
def State.blockStep (s : State) : State :=
  if s.canStep then
    match s.dma with
    | .active src n i => s.dmaStep src n i
    | .idle =>
      match s.timer with
      | .waiting _ => { s with timer := .idle }
      | .idle =>
        match s.todo with
        | some (op :: rest) => s.seqStep op rest
        | some [] => s.complete
        | none => s
  else s

/-- At most `n` steps of the block, with nobody between them. -/
def State.runBlock : Nat → State → State
  | 0, s => s
  | n + 1, s => if s.canStep then State.runBlock n s.blockStep else s

/-- A bound on the steps of one glyph cell: a window sequence, `SetDC`, and a burst of 2 bytes for each pixel. -/
def glyphWork (c : Config) (t : Text) : Nat :=
  let f := font c t.font
  22 + 4 * (f.width * f.height)

/-- A bound on the block's steps for one entry of the step list, those of the burst or delay it starts among them. -/
def Micro.work (c : Config) : Micro → Nat
  | .dma _ n => n + 2
  | .delay _ => 2
  | .strScan t _ _ n => (c.hostMemSize - (t.addr + n)) + 4 + (c.hostMemSize - t.addr) * (glyphWork c t + 1)
  | .strDraw t len i _ _ _ => (len - i) * (glyphWork c t + 1) + 1
  | _ => 1

/-- The steps the DMA engine has left. -/
def Dma.work : Dma → Nat
  | .idle => 0
  | .active _ n i => n - i + 1

/-- The steps the delay timer has left. -/
def Timer.work : Timer → Nat
  | .idle => 0
  | .waiting _ => 1

/-- A bound on the steps the block has left in the running request (70 R299). -/
def State.work (s : State) : Nat :=
  s.dma.work + s.timer.work + (((s.todo.getD []).map (Micro.work s.cfg.val)).sum + 1)

/-- The run of the block, with nobody between its steps, until it has no step: the request completes, takes a fault, or
hangs. -/
def State.finish (s : State) : State := s.runBlock s.work

/-- What PreCheck and the request's own checks before its first event decide (60 R256, R257): the fault they raise, or the
request's step list. -/
abbrev Plan := Except FaultCause (List Micro)

/-- The start of a request: its first check that fails raises its fault; otherwise its step list is ready to run. -/
def State.start (s : State) (p : Plan) : State :=
  match p with
  | .error c => s.raise c
  | .ok ops => { s with todo := some ops }

/-- A whole request (30 R114): start it and run it with nobody between its steps. -/
def State.request (s : State) (p : Plan) : Host.Outcome State Fault Refusal := .next (s.start p).finish

/-- `NOT_READY` unless `PSTATE = Ready` (60 R253). -/
def State.whenReady (s : State) (p : Plan) : Plan := if s.pstate = .ready then p else .error .notReady

end Sys2Proof.Machine
end

