-- ==== Sys2Proof/Machine/AddressWindow.lean ====
section
/-! DEFINITION. SETWIN (42 R182). -/

namespace Sys2Proof.Machine

/-- SETWIN (42 R182): `NOT_READY`, then `BAD_OPERAND` unless the window is inside the panel (60 R254, R256); it neither
clips nor touches CS. -/
def planSetwin (mode : Mode) (x0 y0 x1 y1 : Half) (s : State) : Plan :=
  s.whenReady
    (if Window.inPanel ⟨x0, y0, x1, y1⟩ s.cfg.val then .ok (setWindowSteps s.cfg.val ⟨x0, y0, x1, y1⟩ mode)
     else .error .badOperand)

def execSetwin (mode : Mode) (x0 y0 x1 y1 : Half) (s : State) : Host.Outcome State Fault Refusal :=
  s.request (planSetwin mode x0 y0 x1 y1 s)

end Sys2Proof.Machine
end

