-- ==== Sys2Proof/Machine/Color.lean ====
section
/-! DEFINITION. COLOR565 (45 R240). -/

namespace Sys2Proof.Machine

/-- COLOR565 (45 R240): `RESULT <- zext_32(Pack565(r, g, b))`, in any panel state, with no event. -/
def planColor565 (_mode : Mode) (r g b : Byte) (_s : State) : Plan := .ok [.setResult ((pack565 r g b).setWidth 32)]

def execColor565 (mode : Mode) (r g b : Byte) (s : State) : Host.Outcome State Fault Refusal :=
  s.request (planColor565 mode r g b s)

end Sys2Proof.Machine
end

