-- ==== Sys2Proof/Machine/Draw.lean ====
section
/-! DEFINITION. The draw requests but WRITE_STRING: pixel, rectangles, image, screen (43 R190 to R199). -/

namespace Sys2Proof.Machine

/-- A draw request that draws the rectangle of `w` by `h` pixels at `(x, y)`, all of it on the panel: the window sequence,
the steps `before` (internal), DC to data, the pixel bursts, in one select/unselect pair (43 R190, R194). -/
def paintSteps (c : Config) (mode : Mode) (x y w h : Nat) (before pixels : List Micro) : List Micro :=
  bracketed (setWindowSteps c (rectWindow x y w h) mode ++ before ++ (.setDC true :: pixels))

/-- `LINEBUF[2k] <- hi(color) ; LINEBUF[2k+1] <- lo(color)` for `k` in `0 .. w-1` (43 R195). -/
def lineFill (color : Half) (w : Nat) : List Micro :=
  (List.range w).flatMap fun k => [.lineByte (2 * k) (hi color), .lineByte (2 * k + 1) (lo color)]

/-- FILL_RECT on exact integers (43 R194): a no-op when the clipped rectangle is empty; else one burst per pixel. -/
def fillSteps (c : Config) (mode : Mode) (x y w h : Nat) (color : Half) : List Micro :=
  match clip c x y w h with
  | none => []
  | some (w', h') => paintSteps c mode x y w' h' [] (pixelSteps (List.replicate (h' * w') color) mode)

/-- FILL_RECT_FAST on exact integers (43 R195): the scanline is built in `LINEBUF` and sent `h'` times. -/
def fillFastSteps (c : Config) (mode : Mode) (x y w h : Nat) (color : Half) : List Micro :=
  match clip c x y w h with
  | none => []
  | some (w', h') =>
    paintSteps c mode x y w' h' (lineFill color w')
      (List.replicate h' (burst .lineBuf (2 * w') mode)).flatten

/-- DRAW_PIXEL (43 R193): a 1 by 1 window; off the panel a no-op. -/
def planDrawPixel (mode : Mode) (x y color : Half) (s : State) : Plan :=
  s.whenReady
    (if s.cfg.val.panelW ≤ x.toNat ∨ s.cfg.val.panelH ≤ y.toNat then .ok []
     else .ok (paintSteps s.cfg.val mode x.toNat y.toNat 1 1 [] (burstBytes (px color) mode)))

/-- FILL_RECT (43 R194). -/
def planFillRect (mode : Mode) (x y w h color : Half) (s : State) : Plan :=
  s.whenReady (.ok (fillSteps s.cfg.val mode x.toNat y.toNat w.toNat h.toNat color))

/-- FILL_RECT_FAST (43 R195). -/
def planFillRectFast (mode : Mode) (x y w h color : Half) (s : State) : Plan :=
  s.whenReady (.ok (fillFastSteps s.cfg.val mode x.toNat y.toNat w.toNat h.toNat color))

/-- DRAW_IMAGE (43 R197): nothing when clipped away, or partly outside with `skip`; then `BUFFER` unless the whole buffer
is inside host memory; then the whole buffer in one burst, or with `crop` the visible part of it. -/
def planDrawImage (mode : Mode) (x y w h : Half) (addr : Word) (s : State) : Plan :=
  let c := s.cfg.val
  s.whenReady
    (match clip c x.toNat y.toNat w.toNat h.toNat with
     | none => .ok []
     | some (w', h') =>
       let inside := w' = w.toNat ∧ h' = h.toNat
       if ¬ inside ∧ c.imageClipMode = .skip then .ok []
       else if ¬ bufOK c addr.toNat (2 * w.toNat * h.toNat) then .error .buffer
       else
         .ok (paintSteps c mode x.toNat y.toNat w' h' []
           (if inside then burst (.mem addr.toNat) (2 * w.toNat * h.toNat) mode
            else burst (.crop addr.toNat w.toNat w') (2 * w' * h') mode)))

/-- FILL_SCREEN: FILL_RECT of the whole panel (43 R198). -/
def planFillScreen (mode : Mode) (color : Half) (s : State) : Plan :=
  s.whenReady (.ok (fillSteps s.cfg.val mode 0 0 s.cfg.val.panelW s.cfg.val.panelH color))

/-- FILL_SCREEN_FAST: FILL_RECT_FAST of the whole panel (43 R199). -/
def planFillScreenFast (mode : Mode) (color : Half) (s : State) : Plan :=
  s.whenReady (.ok (fillFastSteps s.cfg.val mode 0 0 s.cfg.val.panelW s.cfg.val.panelH color))

def execDrawPixel (mode : Mode) (x y color : Half) (s : State) : Host.Outcome State Fault Refusal :=
  s.request (planDrawPixel mode x y color s)

def execFillRect (mode : Mode) (x y w h color : Half) (s : State) : Host.Outcome State Fault Refusal :=
  s.request (planFillRect mode x y w h color s)

def execFillRectFast (mode : Mode) (x y w h color : Half) (s : State) : Host.Outcome State Fault Refusal :=
  s.request (planFillRectFast mode x y w h color s)

def execDrawImage (mode : Mode) (x y w h : Half) (addr : Word) (s : State) : Host.Outcome State Fault Refusal :=
  s.request (planDrawImage mode x y w h addr s)

def execFillScreen (mode : Mode) (color : Half) (s : State) : Host.Outcome State Fault Refusal :=
  s.request (planFillScreen mode color s)

def execFillScreenFast (mode : Mode) (color : Half) (s : State) : Host.Outcome State Fault Refusal :=
  s.request (planFillScreenFast mode color s)

end Sys2Proof.Machine
end

