-- ==== Sys2Proof/Machine/Init.lean ====
section
/-! DEFINITION. INIT: the panel reset pulse and the command-script interpreter (41 R160 to R168). -/

namespace Sys2Proof.Machine

/-- `RunEntry` (41 R164, R165): the command byte, the argument burst if there are arguments, the delay if flagged. -/
def entrySteps (mode : Mode) (e : ScriptEntry) : List Micro :=
  command e.opcode
    ++ (if e.args.isEmpty then [] else .setDC true :: burstBytes e.args mode)
    ++ (match e.delay with
        | some d => [.delay (delayMs d)]
        | none => [])

/-- `RunScript(S, mode)` (41 R163). -/
def scriptSteps (mode : Mode) (script : List Byte) : List Micro := (scriptEntries script).flatMap (entrySteps mode)

/-- `ResetPulse()` (41 R162). -/
def resetPulse (c : Config) : List Micro := [.setRST false, .delay c.resetSettleMs, .setRST true]

/-- INIT (41 R160): the scripts in list order (41 R166), in one select/unselect pair. Allowed in every panel state. -/
def planInit (mode : Mode) (s : State) : Plan :=
  .ok (bracketed
    (.setPState .resetting :: (resetPulse s.cfg.val
      ++ (.setPState .scriptExecuting :: (s.cfg.val.scripts.flatMap (scriptSteps mode)
        ++ [.setPState .ready])))))

def execInit (mode : Mode) (s : State) : Host.Outcome State Fault Refusal := s.request (planInit mode s)

end Sys2Proof.Machine
end

