-- ==== Sys2Proof/Machine/PanelMode.lean ====
section
/-! DEFINITION. The panel mode requests INVERT and SET_GAMMA (44 R230, R231). -/

namespace Sys2Proof.Machine

/-- INVERT (44 R230): one command byte and no data byte. -/
def planInvert (_mode : Mode) (on : Bool) (s : State) : Plan :=
  s.whenReady (.ok (bracketed (command (if on then s.cfg.val.opcInvon else s.cfg.val.opcInvoff))))

/-- SET_GAMMA (44 R231): the command and one data byte, the unchecked curve. -/
def planSetGamma (mode : Mode) (curve : Byte) (s : State) : Plan :=
  s.whenReady (.ok (bracketed (command s.cfg.val.opcGamset ++ (.setDC true :: burstBytes [curve] mode))))

def execInvert (mode : Mode) (on : Bool) (s : State) : Host.Outcome State Fault Refusal :=
  s.request (planInvert mode on s)

def execSetGamma (mode : Mode) (curve : Byte) (s : State) : Host.Outcome State Fault Refusal :=
  s.request (planSetGamma mode curve s)

end Sys2Proof.Machine
end

