-- ==== Sys2Proof/Machine/Transport.lean ====
section
/-! DEFINITION. The transport requests SELECT, UNSELECT, WRCMD and WRDATA (40 R142 to R145). -/

namespace Sys2Proof.Machine

/-- SELECT: `SetCS(0)` (40 R142). -/
def planSelect (_mode : Mode) (_s : State) : Plan := .ok [.setCS false]

/-- UNSELECT: `SetCS(1)` (40 R143). -/
def planUnselect (_mode : Mode) (_s : State) : Plan := .ok [.setCS true]

/-- WRCMD: `SetDC(0); Tx(opc)`; the byte is always synchronous and CS is not touched (40 R144, R152). -/
def planWrcmd (_mode : Mode) (opc : Byte) (_s : State) : Plan := .ok (command opc)

/-- WRDATA (40 R145): `BUFFER` unless the range is inside host memory; then `SetDC(1)` and one burst. -/
def planWrdata (mode : Mode) (addr len : Word) (s : State) : Plan :=
  if bufOK s.cfg.val addr.toNat len.toNat then .ok (.setDC true :: burst (.mem addr.toNat) len.toNat mode)
  else .error .buffer

def execSelect (mode : Mode) (s : State) : Host.Outcome State Fault Refusal := s.request (planSelect mode s)

def execUnselect (mode : Mode) (s : State) : Host.Outcome State Fault Refusal := s.request (planUnselect mode s)

def execWrcmd (mode : Mode) (opc : Byte) (s : State) : Host.Outcome State Fault Refusal :=
  s.request (planWrcmd mode opc s)

def execWrdata (mode : Mode) (addr len : Word) (s : State) : Host.Outcome State Fault Refusal :=
  s.request (planWrdata mode addr len s)

end Sys2Proof.Machine
end

