-- ==== Sys2Proof/Machine/WriteString.lean ====
section
/-! DEFINITION. WRITE_STRING (43 R200 to R204); its loops are `State.strScanStep` and `State.strDrawStep`. -/

namespace Sys2Proof.Machine

/-- WRITE_STRING (43 R200): `NOT_READY`, then `BAD_OPERAND` unless `FONT < FONT_COUNT` (60 R254, R256); then `StrLen`. -/
def planWriteString (mode : Mode) (fontIdx : Byte) (x y fg bg : Half) (addr : Word) (s : State) : Plan :=
  s.whenReady
    (if fontIdx.toNat < s.cfg.val.fontCount then
       .ok [.strScan ⟨mode, fontIdx.toNat, fg, bg, addr.toNat⟩ x.toNat y.toNat 0]
     else .error .badOperand)

def execWriteString (mode : Mode) (fontIdx : Byte) (x y fg bg : Half) (addr : Word) (s : State) :
    Host.Outcome State Fault Refusal :=
  s.request (planWriteString mode fontIdx x y fg bg addr s)

end Sys2Proof.Machine
end

