-- ==== Sys2Proof/Machine/Plan.lean ====
section
/-! DEFINITION. The step list of each request, and the block's turn when others may come between its steps (30 R114). -/

namespace Sys2Proof.Machine

/-- PreCheck and the rule of the request (30 R114, 60 R256). `exec` runs the same plans. -/
def plan (i : Instr) (s : State) : Plan :=
  match i with
  | .select m => planSelect m s
  | .unselect m => planUnselect m s
  | .wrcmd m opc => planWrcmd m opc s
  | .wrdata m addr len => planWrdata m addr len s
  | .setwin m x0 y0 x1 y1 => planSetwin m x0 y0 x1 y1 s
  | .init m => planInit m s
  | .drawPixel m x y color => planDrawPixel m x y color s
  | .fillRect m x y w h color => planFillRect m x y w h color s
  | .fillRectFast m x y w h color => planFillRectFast m x y w h color s
  | .drawImage m x y w h addr => planDrawImage m x y w h addr s
  | .writeString m f x y fg bg addr => planWriteString m f x y fg bg addr s
  | .fillScreen m color => planFillScreen m color s
  | .fillScreenFast m color => planFillScreenFast m color s
  | .invert m on => planInvert m on s
  | .setGamma m curve => planSetGamma m curve s
  | .color565 m r g b => planColor565 m r g b s

/-- The request the sequencer decodes: only `LREQ`, never `REQ` (10 R45, 30 R114). -/
def State.fetch (s : State) : Except DecodeError Instr := decode s.lreq

/-- The first step of a request, with nothing of it run yet: decode, PreCheck and its own checks (30 R114). -/
def State.begin (s : State) : State :=
  match s.fetch with
  | .error _ => s.raise .illegalRequest
  | .ok i => s.start (plan i s)

/-- One turn of the block (00 R12): the first step of a latched request, or the next atomic step of a running one. A block
with no step (idle, halted, hung) stays as it is. -/
def blockTurn (s : State) : Host.Outcome State Fault Refusal :=
  if s.seq = .exec ∧ s.hung = false then
    if s.todo = none then .next s.begin
    else
      match s.nextRead with
      | some a => if s.cfg.val.hostMemSize ≤ a then .fault (.blockReadOutsideMemory a) else .next s.blockStep
      | none => .next s.blockStep
  else .next s

end Sys2Proof.Machine
end

