-- ==== Sys2Proof/Machine/Dispatch.lean ====
section
/-! DEFINITION. `exec`: one arm per request, each one call of its meaning. -/

namespace Sys2Proof.Machine

def exec (i : Instr) (s : State) : Host.Outcome State Fault Refusal :=
  match i with
  | .select m => Sys2Proof.Machine.execSelect m s
  | .unselect m => Sys2Proof.Machine.execUnselect m s
  | .wrcmd m opc => Sys2Proof.Machine.execWrcmd m opc s
  | .wrdata m addr len => Sys2Proof.Machine.execWrdata m addr len s
  | .setwin m x0 y0 x1 y1 => Sys2Proof.Machine.execSetwin m x0 y0 x1 y1 s
  | .init m => Sys2Proof.Machine.execInit m s
  | .drawPixel m x y color => Sys2Proof.Machine.execDrawPixel m x y color s
  | .fillRect m x y w h color => Sys2Proof.Machine.execFillRect m x y w h color s
  | .fillRectFast m x y w h color => Sys2Proof.Machine.execFillRectFast m x y w h color s
  | .drawImage m x y w h addr => Sys2Proof.Machine.execDrawImage m x y w h addr s
  | .writeString m f x y fg bg addr => Sys2Proof.Machine.execWriteString m f x y fg bg addr s
  | .fillScreen m color => Sys2Proof.Machine.execFillScreen m color s
  | .fillScreenFast m color => Sys2Proof.Machine.execFillScreenFast m color s
  | .invert m on => Sys2Proof.Machine.execInvert m on s
  | .setGamma m curve => Sys2Proof.Machine.execSetGamma m curve s
  | .color565 m r g b => Sys2Proof.Machine.execColor565 m r g b s

end Sys2Proof.Machine
end

