-- ==== Sys2Proof/Machine/HostPort.lean ====
section
/-! DEFINITION. The host's accesses (10 R30 to R44, 20 R70 to R76): register reads and writes, the doorbell, held and
ignored writes, soft reset, host memory, and the polling loop. -/

namespace Sys2Proof.Machine

/-- The byte offset a register access names, or why it has no meaning (20 R70, R71). -/
def windowOffset (c : Config) (addr : Word) (width : Nat) : Except Refusal Nat :=
  let off := (addr - c.blockBase).toNat
  if 0x40 ≤ off then .error (.outsideWindow addr)
  else if width = 32 ∧ off % 4 = 0 then .ok off
  else .error (.registerAccessForm width off)

/-- A write to this offset is held while `SEQ = EXEC`: `REQ_W0` to `REQ_W3` and `CTRL` (10 R32). Writes to the read-only
registers and the reserved offsets are not (10 R41). -/
def heldOffset (off : Nat) : Bool := off == 0x00 || off == 0x04 || off == 0x08 || off == 0x0C || off == 0x20

/-- A host write to the register at byte offset `off`, when it takes effect (10 R31, R33, R41, R44; 30 R113). -/
def State.writeReg (s : State) (off : Nat) (v : Word) : State :=
  if off = 0x20 then (if v.getLsbD 0 then s.resetBlock else s)
  else if s.seq ≠ .idle then s
  else if off = 0x00 then s.doorbell v
  else if off = 0x04 then { s with req := { s.req with w1 := v } }
  else if off = 0x08 then { s with req := { s.req with w2 := v } }
  else if off = 0x0C then { s with req := { s.req with w3 := v } }
  else s

/-- One turn of the host: its next access, with `rest` to follow. A held write stays the host's next access (10 R32). -/
def hostAccess (s : State) (op : HostOp) (rest : List HostOp) : Host.Outcome State Fault Refusal :=
  let s' := { s with host := rest }
  match op with
  | .readReg addr width =>
    match windowOffset s.cfg.val addr width with
    | .error r => .refused r
    | .ok off => .next { s' with seen := s.seen ++ [s.readReg off] }
  | .writeReg addr width v =>
    match windowOffset s.cfg.val addr width with
    | .error r => .refused r
    | .ok off => if s.seq = .exec ∧ heldOffset off then .next s else .next (s'.writeReg off v)
  | .load a =>
    if a < s.cfg.val.hostMemSize then .next { s' with seen := s.seen ++ [(Mem.read s.mem a).setWidth 32] }
    else .fault (.hostAccessOutsideMemory a)
  | .store a bytes =>
    if a + bytes.length ≤ s.cfg.val.hostMemSize then .next { s' with mem := Mem.writeBytes s.mem a bytes }
    else .fault (.hostAccessOutsideMemory a)
  | .waitIdle =>
    if s.seq = .exec then .next { s with seen := s.seen ++ [s.status] }
    else .next { s' with seen := s.seen ++ [s.status] }

/-- One turn of the host; nothing when it has no access to make. -/
def hostTurn (s : State) : Host.Outcome State Fault Refusal :=
  match s.host with
  | [] => .next s
  | op :: rest => hostAccess s op rest

end Sys2Proof.Machine
end

