-- ==== Sys2Proof/Machine/Schedule.lean ====
section
/-! DEFINITION. Whose turn it is (00 R12), and how a descriptor is placed where the next step runs it. -/

namespace Sys2Proof.Machine

/-- The latched request as a whole (30 R114): `exec` of the request the descriptor decodes to, or `ILLEGAL_REQUEST`
(60 R252). -/
def execLatched (s : State) : Host.Outcome State Fault Refusal :=
  match s.fetch with
  | .ok i => exec i s
  | .error _ => .next (s.raise .illegalRequest)

/-- A turn that `sched` does not name, so that nobody comes between the block's steps: a request that has not begun runs
whole; a request in its middle runs on to its end; a block with no step leaves the turn to the host (log 1). -/
def quietTurn (s : State) : Host.Outcome State Fault Refusal :=
  if s.seq = .exec ∧ s.hung = false then
    match s.todo with
    | none => execLatched s
    | some _ => if s.badRead then blockTurn s else .next s.finish
  else hostTurn s

/-- One turn (00 R12). -/
def turn (s : State) : Host.Outcome State Fault Refusal :=
  match s.sched with
  | .block :: rest => blockTurn { s with sched := rest }
  | .host :: rest => hostTurn { s with sched := rest }
  | .hwReset :: rest => .next { s with sched := rest }.resetBlock
  | [] => quietTurn s

/-- The state in which a doorbell has latched `d` and nothing of the request has run, with nobody due to interrupt it. -/
def State.latch (s : State) (d : Desc) : State :=
  { s with req := d, lreq := d, seq := .exec, todo := none, dma := .idle, timer := .idle, hung := false, sched := [] }

end Sys2Proof.Machine
end

