-- ==== Sys2Proof/Machine/Step.lean ====
section
/-! DEFINITION. One step of the machine, and the placing of a descriptor for the next step. -/

namespace Sys2Proof.Machine

/-- One step: one turn. -/
def step (s : State) : Host.Outcome State Fault Refusal := turn s

/-- `s` with the request whose bits are `w` latched by a doorbell, so that the next step runs it whole. The block has no
program counter (10 R48); a request comes from the host's writes (30 R113), for which this stands (log 2, log 16). -/
def State.withFetchWord (s : State) (nbits w : Nat) : State := s.latch (Desc.ofBits nbits w)

end Sys2Proof.Machine
end

