-- ==== Sys2Proof/Machine/Asm.lean ====
section
/-! DEFINITION. The assembler syntax, the host sequence SUBMIT and the pseudo-instructions (30 R125 to R127). -/

namespace Sys2Proof.Machine

/-- A number fits a field of `w` bits (30 R125: the assembler refuses an operand that does not). -/
def field (w n : Nat) : Option (BitVec w) := if n < 2 ^ w then some (BitVec.ofNat w n) else none

/-- The request of a mnemonic, its `MODE` and its operands in the order of 30 R125. -/
def assemble (mnemonic : String) (m : Mode) (operands : List Nat) : Option Instr :=
  match mnemonic, operands with
  | "SELECT", [] => some (.select m)
  | "UNSELECT", [] => some (.unselect m)
  | "INIT", [] => some (.init m)
  | "WRCMD", [o] => do return .wrcmd m (← field 8 o)
  | "WRDATA", [a, l] => do return .wrdata m (← field 32 a) (← field 32 l)
  | "SETWIN", [x0, y0, x1, y1] => do return .setwin m (← field 16 x0) (← field 16 y0) (← field 16 x1) (← field 16 y1)
  | "DRAW_PIXEL", [x, y, c] => do return .drawPixel m (← field 16 x) (← field 16 y) (← field 16 c)
  | "FILL_RECT", [x, y, w, h, c] => do
    return .fillRect m (← field 16 x) (← field 16 y) (← field 16 w) (← field 16 h) (← field 16 c)
  | "FILL_RECT_FAST", [x, y, w, h, c] => do
    return .fillRectFast m (← field 16 x) (← field 16 y) (← field 16 w) (← field 16 h) (← field 16 c)
  | "DRAW_IMAGE", [x, y, w, h, a] => do
    return .drawImage m (← field 16 x) (← field 16 y) (← field 16 w) (← field 16 h) (← field 32 a)
  | "WRITE_STRING", [f, x, y, fg, bg, a] => do
    return .writeString m (← field 8 f) (← field 16 x) (← field 16 y) (← field 16 fg) (← field 16 bg) (← field 32 a)
  | "FILL_SCREEN", [c] => do return .fillScreen m (← field 16 c)
  | "FILL_SCREEN_FAST", [c] => do return .fillScreenFast m (← field 16 c)
  | "INVERT", [on] => do return .invert m ((← field 1 on) == 1)
  | "SET_GAMMA", [g] => do return .setGamma m (← field 8 g)
  | "COLOR565", [r, g, b] => do return .color565 m (← field 8 r) (← field 8 g) (← field 8 b)
  | _, _ => none

/-- The value of a digit in the given base. -/
def digit (base : Nat) (c : Char) : Option Nat :=
  let n := c.toNat
  let v :=
    if 48 ≤ n ∧ n ≤ 57 then n - 48
    else if 97 ≤ n ∧ n ≤ 102 then n - 87
    else if 65 ≤ n ∧ n ≤ 70 then n - 55
    else 16
  if v < base then some v else none

/-- Digits, most significant first, after the value `acc`. -/
def digits (base : Nat) : Nat → List Char → Option Nat
  | acc, [] => some acc
  | acc, c :: cs =>
    match digit base c with
    | some d => digits base (acc * base + d) cs
    | none => none

/-- A number in decimal or `0x` hex (30 R125). -/
def number : List Char → Option Nat
  | '0' :: 'x' :: c :: cs => digits 16 0 (c :: cs)
  | [] => none
  | cs => digits 10 0 cs

/-- Cuts a list of characters at each `sep`. -/
def cutAt (sep : Char) : List Char → List (List Char)
  | [] => [[]]
  | c :: cs =>
    match cutAt sep cs with
    | [] => [[c]]
    | part :: parts => if c = sep then [] :: part :: parts else (c :: part) :: parts

/-- The numbers of a list of operand texts. -/
def numbers : List (List Char) → Option (List Nat)
  | [] => some []
  | t :: ts =>
    match number t, numbers ts with
    | some n, some ns => some (n :: ns)
    | _, _ => none

/-- The text without the spaces at its two ends. -/
def trim (cs : List Char) : List Char := ((cs.dropWhile (· == ' ')).reverse.dropWhile (· == ' ')).reverse

/-- One line `MNEMONIC[.dma] operand, operand, ...` (30 R125) [the mnemonic ends at the first space; spaces around an operand
are skipped, and one inside an operand is refused: DESIGN CHOICE, safe, log 19]. -/
def assembleLine (line : List Char) : Option Instr :=
  let head := line.takeWhile (· != ' ')
  let text := trim (line.drop head.length)
  let (mn, m) :=
    match cutAt '.' head with
    | [mn, ['d', 'm', 'a']] => (mn, Mode.burst)
    | _ => (head, Mode.byte)
  match (if text.isEmpty then some [] else numbers ((cutAt ',' text).map trim)) with
  | some ns => assemble (String.ofList mn) m ns
  | none => none

/-- `SUBMIT`: `REQ_W1`, `REQ_W2` and `REQ_W3`, then `REQ_W0` (30 R126). -/
def submit (base : Word) (d : Desc) : List HostOp :=
  [.writeReg (base + 4) 32 d.w1, .writeReg (base + 8) 32 d.w2, .writeReg (base + 12) 32 d.w3, .writeReg base 32 d.w0]

/-- A request issued and waited for (30 R126). -/
def issue (base : Word) (i : Instr) : List HostOp := submit base (encode i) ++ [.waitIdle]

/-- The pseudo-instructions (30 R127). `WAITIDLE` is `HostOp.waitIdle`. -/
inductive Pseudo where
  | sendCmd (opc : Byte)
  | sendCmdData (opc : Byte) (addr len : Word)
  | blit (addr : Word) (w h : Half)
  deriving DecidableEq, Repr

/-- Their expansions, each a sequence of requests (30 R127). The rule writes them with no `.dma` and says nothing of the suffix
on a pseudo-instruction: `m = .byte` is what it writes, and another `m` goes to every request of the expansion
[DESIGN CHOICE, safe, log 28]. -/
def Pseudo.expand (m : Mode) : Pseudo → List Instr
  | .sendCmd opc => [.select m, .wrcmd m opc, .unselect m]
  | .sendCmdData opc addr len => [.select m, .wrcmd m opc, .wrdata m addr len, .unselect m]
  | .blit addr w h => [.drawImage m 0 0 w h addr]

end Sys2Proof.Machine
end

