-- ==== Sys2Proof/Machine/Panel.lean ====
section
/-! DEFINITION. How the panel reads the wire trace (20 R90 to R94, informative): a function of the events.
No step of the block reads it. -/

namespace Sys2Proof.Machine

/-- What the panel has taken from the trace so far. -/
structure Panel where
  /-- The opcode whose arguments follow, none before the first command. -/
  cmd    : Option Byte
  /-- The argument bytes of a CASET or RASET so far. -/
  args   : List Byte
  /-- The column range, none while no CASET has set it: the block knows nothing of the panel's own (10 R43). -/
  cols   : Option (Nat × Nat)
  /-- The row range, likewise. -/
  rows   : Option (Nat × Nat)
  /-- The high byte of a pixel whose low byte has not come (20 R94); the next command drops it (log 17). -/
  half   : Option Byte
  /-- How many pixels the RAMWR stream has brought. -/
  count  : Nat
  /-- The pixels written, oldest first: column, row, colour. -/
  pixels : List (Nat × Nat × Half)
  /-- Pixels past the end of the window, or with no window: where the panel puts them is `PANEL_WRAP` (20 R93, log 17). -/
  beyond : List Half
  deriving DecidableEq, Repr

/-- A panel that has seen nothing. -/
def Panel.fresh : Panel := ⟨none, [], none, none, none, 0, [], []⟩

/-- A command byte (20 R91): its arguments start anew. An unpaired last byte of a RAMWR stream is dropped by it, with no pixel
and no record [DESIGN CHOICE, unsafe for a claim about the panel after such a stream: 20 R94 and U17 leave it open, log 17]. -/
def Panel.command (p : Panel) (b : Byte) : Panel := { p with cmd := some b, args := [], half := none, count := 0 }

/-- The range a four-byte argument list gives (20 R91). -/
def rangeOf : List Byte → Option (Nat × Nat)
  | [sh, sl, eh, el] => some ((sh ++ sl : Half).toNat, (eh ++ el : Half).toNat)
  | _ => none

/-- Pixel `count` of the stream, of colour `v` (20 R92, R93). A range whose end lies below its start has no column or row, so
no pixel of its window is placed [when both ranges are so by two or more, the rule's product is above 0 but its `mod` is by a
negative number: DESIGN CHOICE, unsafe for a claim about the panel then, log 17]. -/
def Panel.pixel (p : Panel) (v : Half) : Panel :=
  match p.cols, p.rows with
  | some (xs, xe), some (ys, ye) =>
    let width := xe + 1 - xs
    if p.count < width * (ye + 1 - ys) then
      { p with
        half := none
        count := p.count + 1
        pixels := p.pixels ++ [(xs + p.count % width, ys + p.count / width, v)] }
    else { p with half := none, count := p.count + 1, beyond := p.beyond ++ [v] }
  | _, _ => { p with half := none, count := p.count + 1, beyond := p.beyond ++ [v] }

/-- A data byte (20 R91, R92). The rule gives the range of a CASET or RASET with four argument bytes only; with fewer the
old range stays, and the fifth byte and later ones are ignored
[DESIGN CHOICE, unsafe for a claim about the panel after such a command, log 17]. Where the opcodes coincide (00 R8 lets them),
a command is a CASET before it is a RASET, and a RASET before it is a RAMWR, and one only
[DESIGN CHOICE, unsafe for a claim about such a panel, log 24]. -/
def Panel.data (c : Config) (p : Panel) (b : Byte) : Panel :=
  if p.cmd = some c.opcCaset then
    let args := p.args ++ [b]
    { p with args := args, cols := if args.length = 4 then rangeOf args else p.cols }
  else if p.cmd = some c.opcRaset then
    let args := p.args ++ [b]
    { p with args := args, rows := if args.length = 4 then rangeOf args else p.rows }
  else if p.cmd = some c.opcRamwr then
    match p.half with
    | none => { p with half := some b }
    | some h => p.pixel (h ++ b)
  else p

/-- One event: the panel takes part only in bytes sent with `cs = 0` (20 R90). -/
def Panel.see (c : Config) (p : Panel) : Event → Panel
  | .byte false false b => p.command b
  | .byte false true b => p.data c b
  | _ => p

/-- The panel after a list of events, oldest first. -/
def Panel.view (c : Config) (p : Panel) (es : List Event) : Panel := es.foldl (Panel.see c) p

end Sys2Proof.Machine
end

