-- ==== Sys2Proof/Safety.lean ====
section
/-! DEFINITION. The terms claims use: launch premises, what the bus does, the events a request emits, the invariant. -/

namespace Sys2Proof.Machine

/-- A doorbell has latched a request and nothing of it has run (30 R113). -/
abbrev State.Latched (s : State) : Prop :=
  s.seq = .exec ∧ s.todo = none ∧ s.dma = .idle ∧ s.timer = .idle ∧ s.hung = false

/-- `CleanStart` (70 R288); nothing is held while `SEQ = IDLE`. -/
abbrev State.CleanStart (s : State) : Prop :=
  s.seq = .idle ∧ s.dma = .idle ∧ s.timer = .idle ∧ s.faultCode = 0 ∧ s.done = false ∧ s.cs = true ∧ s.rst = true
    ∧ s.pstate = .uninitialized

/-- `PanelReady`: `CleanStart` but for `PSTATE = Ready` (70 R288). -/
abbrev State.PanelReady (s : State) : Prop :=
  s.seq = .idle ∧ s.dma = .idle ∧ s.timer = .idle ∧ s.faultCode = 0 ∧ s.done = false ∧ s.cs = true ∧ s.rst = true
    ∧ s.pstate = .ready

/-- A host access that writes: a register or host memory. -/
def HostOp.isWrite : HostOp → Bool
  | .writeReg _ _ _ | .store _ _ => true
  | .readReg _ _ | .load _ | .waitIdle => false

/-- The run has ended (70 R300): the host has no write held or pending; reads may be left. -/
abbrev State.Ended (s : State) : Prop :=
  s.seq ≠ .exec ∧ s.dma = .idle ∧ s.timer = .idle ∧ ∀ op ∈ s.host, op.isWrite = false

/-- The next `n` frames complete (40 R141). -/
abbrev State.FramesOk (s : State) (n : Nat) : Prop := ∀ k, k < n → s.frame k = .ok

/-- `BusLive` for the next `n` frames: each completes or ends in an error (70 R296). -/
abbrev State.BusLive (s : State) (n : Nat) : Prop := ∀ k, k < n → s.frame k ≠ .never

/-- The events of data bytes sent with chip-select at level `cs` (30 R116). -/
def dataEvents (cs : Bool) (l : List Byte) : List Event := l.map (Event.byte cs true)

/-- The eleven events of a window sequence (42 R180). -/
def windowEvents (c : Config) (cs : Bool) (w : Window) : List Event :=
  .byte cs false c.opcCaset :: dataEvents cs (coordArgs w.x0 w.x1 c.xStart)
    ++ .byte cs false c.opcRaset :: dataEvents cs (coordArgs w.y0 w.y1 c.yStart)
    ++ [.byte cs false c.opcRamwr]

/-- The event of `SetCS(0)` in `s`: one when CS was 1, none when it was 0 already (40 R140). -/
def State.lowEvents (s : State) : List Event := if s.cs then [.csLow] else []

/-- The event of `SetCS(1)` in `s` (40 R140). -/
def State.highEvents (s : State) : List Event := if s.cs then [] else [.csHigh]

/-- `n` pixels of one colour, as bytes (30 R119). -/
def pixelBytes (n : Nat) (color : Half) : List Byte := (List.replicate n (px color)).flatten

/-- `DONE` after a request that has sent a data burst (40 R146, R149): 1 in burst mode, unchanged in byte mode. -/
def State.doneAfter (s : State) (m : Mode) : Bool := m == .burst || s.done

/-- Host memory bytes `addr .. addr+n-1`, in address order (20 R79). -/
def State.memBytes (s : State) (addr n : Nat) : List Byte := (List.range n).map fun k => Mem.read s.mem (addr + k)

/-- The visible `w'` by `h'` pixels of a `w`-pixel-wide image at `addr`, row by row (43 R197, `crop`). -/
def State.cropBytes (s : State) (addr w w' h' : Nat) : List Byte :=
  (List.range h').flatMap fun r => s.memBytes (addr + 2 * (r * w)) (2 * w')

/-- `s` after a draw request that has painted the rectangle of `w` by `h` pixels at `(x, y)` with the pixel bytes `bytes`:
its events in one select/unselect pair, the lines, the window, `DONE`, the frames it took, and nothing else (43 R190). -/
def State.painted (s : State) (m : Mode) (x y w h : Nat) (bytes : List Byte) : State :=
  { s with
    cs := true
    dc := true
    window := rectWindow x y w h
    done := s.doneAfter m
    trace := s.trace ++ s.lowEvents ++ windowEvents s.cfg.val false (rectWindow x y w h) ++ dataEvents false bytes
      ++ [.csHigh]
    bus := s.bus.drop (11 + bytes.length)
    draws := s.draws + (11 + bytes.length)
    seq := .idle }

/-- The events before the `k`-th byte of `es`, counted from 0. -/
def beforeFrame : Nat → List Event → List Event
  | _, [] => []
  | k, .byte cs dc b :: es =>
    match k with
    | 0 => []
    | j + 1 => .byte cs dc b :: beforeFrame j es
  | k, e :: es => e :: beforeFrame k es

/-- The `dc` field of each byte of `es`, in order. -/
def frameLevels (es : List Event) : List Bool :=
  es.filterMap fun
    | .byte _ dc _ => some dc
    | _ => none

/-- `s` after a request that sends `es` between its select and its unselect, when the `k`-th frame ended in an error
(60 R251, R255, R258): the events before that frame stay; DC is at that frame's level; `DONE` is unchanged in byte mode, and in
burst mode 0 in a data burst and else 1 once a data burst has been sent (40 R146, R148); fault entry releases CS. -/
def State.failed (s : State) (m : Mode) (es : List Event) (k : Nat) : State :=
  let dc := (frameLevels es).getD k false
  State.raise { s with
    cs := false
    dc := dc
    done := if m = .byte then s.done else !dc && (s.done || (frameLevels (beforeFrame k es)).contains true)
    trace := s.trace ++ s.lowEvents ++ beforeFrame k es
    bus := s.bus.drop (k + 1)
    draws := s.draws + (k + 1) } .transport

/-- `s` after a draw request that paints as `State.painted`, when the `k`-th frame ended in an error: a window sequence that
faults leaves `WINDOW` (42 R181). -/
def State.paintFailed (s : State) (m : Mode) (x y w h : Nat) (bytes : List Byte) (k : Nat) : State :=
  { s.failed m (windowEvents s.cfg.val false (rectWindow x y w h) ++ dataEvents false bytes) k with
    window := if k < 11 then s.window else rectWindow x y w h }

/-- `s` after a request that is a no-op: only `SEQ` has changed (43 R190, 30 R115). -/
def State.passed (s : State) : State := { s with seq := .idle }

/-- Bit 8 of `W0` (30 R102). -/
def modeBit (m : Mode) : Word := if m = .burst then 0x100 else 0

/-- An 8-bit operand in `W0[23:16]` (30 R104). -/
def imm8Bits (b : Byte) : Word := b.setWidth 32 <<< 16

/-- The glyph cells WRITE_STRING draws of the characters `cs` from `(x, y)` on, in order (43 R200). -/
def layout (c : Config) (f : Font) : List Byte → Nat → Nat → Bool → List (Byte × Nat × Nat)
  | [], _, _, _ => []
  | ch :: rest, x, y, atLineStart =>
    let wrap := decide (c.panelW < x + f.width)
    let x := if wrap then 0 else x
    let y := if wrap then y + f.height else y
    let atLineStart := atLineStart || wrap
    if c.panelW < f.width then []
    else if c.panelH < y + f.height then []
    else if atLineStart ∧ ch = 0x20 then layout c f rest x y atLineStart
    else (ch, x, y) :: layout c f rest (x + f.width) y false

/-- The window of a glyph cell (43 R201). -/
def cellWindow (f : Font) (g : Byte × Nat × Nat) : Window := rectWindow g.2.1 g.2.2 f.width f.height

/-- The events of one glyph cell, sent while selected (43 R201). -/
def cellEvents (c : Config) (f : Font) (fg bg : Half) (g : Byte × Nat × Nat) : List Event :=
  windowEvents c false (cellWindow f g) ++ dataEvents false ((glyphPixels f g.1.toNat fg bg).flatMap px)

/-- The events of one script entry, sent while selected (41 R164, R165). -/
def entryEvents (e : ScriptEntry) : List Event :=
  .byte false false e.opcode :: dataEvents false e.args
    ++ (match e.delay with
        | some d => [.delay (delayMs d)]
        | none => [])

/-- Every entry INIT runs, the scripts in list order (41 R166). -/
def allEntries (c : Config) : List ScriptEntry := c.scripts.flatMap scriptEntries

/-- `MODE` of a request (30 R102). -/
def modeOf : Instr → Mode
  | .select m | .unselect m | .wrcmd m _ | .wrdata m _ _ | .setwin m _ _ _ _ | .init m | .drawPixel m _ _ _
  | .fillRect m _ _ _ _ _ | .fillRectFast m _ _ _ _ _ | .drawImage m _ _ _ _ _ | .writeString m _ _ _ _ _ _
  | .fillScreen m _ | .fillScreenFast m _ | .invert m _ | .setGamma m _ | .color565 m _ _ _ => m

/-- The same request with another `MODE` (30 R111). -/
def withMode (m : Mode) : Instr → Instr
  | .select _ => .select m
  | .unselect _ => .unselect m
  | .wrcmd _ opc => .wrcmd m opc
  | .wrdata _ addr len => .wrdata m addr len
  | .setwin _ x0 y0 x1 y1 => .setwin m x0 y0 x1 y1
  | .init _ => .init m
  | .drawPixel _ x y color => .drawPixel m x y color
  | .fillRect _ x y w h color => .fillRect m x y w h color
  | .fillRectFast _ x y w h color => .fillRectFast m x y w h color
  | .drawImage _ x y w h addr => .drawImage m x y w h addr
  | .writeString _ f x y fg bg addr => .writeString m f x y fg bg addr
  | .fillScreen _ color => .fillScreen m color
  | .fillScreenFast _ color => .fillScreenFast m color
  | .invert _ on => .invert m on
  | .setGamma _ curve => .setGamma m curve
  | .color565 _ r g b => .color565 m r g b

/-- The mnemonic of a request (30 R107). -/
def mnemonicOf : Instr → String
  | .select _ => "SELECT"
  | .unselect _ => "UNSELECT"
  | .wrcmd _ _ => "WRCMD"
  | .wrdata _ _ _ => "WRDATA"
  | .setwin _ _ _ _ _ => "SETWIN"
  | .init _ => "INIT"
  | .drawPixel _ _ _ _ => "DRAW_PIXEL"
  | .fillRect _ _ _ _ _ _ => "FILL_RECT"
  | .fillRectFast _ _ _ _ _ _ => "FILL_RECT_FAST"
  | .drawImage _ _ _ _ _ _ => "DRAW_IMAGE"
  | .writeString _ _ _ _ _ _ _ => "WRITE_STRING"
  | .fillScreen _ _ => "FILL_SCREEN"
  | .fillScreenFast _ _ => "FILL_SCREEN_FAST"
  | .invert _ _ => "INVERT"
  | .setGamma _ _ => "SET_GAMMA"
  | .color565 _ _ _ _ => "COLOR565"

/-- The operands of a request as numbers, in the order of 30 R125. -/
def operandsOf : Instr → List Nat
  | .select _ | .unselect _ | .init _ => []
  | .wrcmd _ opc => [opc.toNat]
  | .wrdata _ addr len => [addr.toNat, len.toNat]
  | .setwin _ x0 y0 x1 y1 => [x0.toNat, y0.toNat, x1.toNat, y1.toNat]
  | .drawPixel _ x y color => [x.toNat, y.toNat, color.toNat]
  | .fillRect _ x y w h color | .fillRectFast _ x y w h color => [x.toNat, y.toNat, w.toNat, h.toNat, color.toNat]
  | .drawImage _ x y w h addr => [x.toNat, y.toNat, w.toNat, h.toNat, addr.toNat]
  | .writeString _ f x y fg bg addr => [f.toNat, x.toNat, y.toNat, fg.toNat, bg.toNat, addr.toNat]
  | .fillScreen _ color | .fillScreenFast _ color => [color.toNat]
  | .invert _ on => [on.toNat]
  | .setGamma _ curve => [curve.toNat]
  | .color565 _ r g b => [r.toNat, g.toNat, b.toNat]

/-- `OP` of a request (30 R107). -/
def opOf : Instr → Byte
  | .select _ => 0x01
  | .unselect _ => 0x02
  | .wrcmd _ _ => 0x03
  | .wrdata _ _ _ => 0x04
  | .setwin _ _ _ _ _ => 0x05
  | .init _ => 0x06
  | .drawPixel _ _ _ _ => 0x10
  | .fillRect _ _ _ _ _ _ => 0x11
  | .fillRectFast _ _ _ _ _ _ => 0x12
  | .drawImage _ _ _ _ _ _ => 0x13
  | .writeString _ _ _ _ _ _ _ => 0x14
  | .fillScreen _ _ => 0x15
  | .fillScreenFast _ _ => 0x16
  | .invert _ _ => 0x17
  | .setGamma _ _ => 0x18
  | .color565 _ _ _ _ => 0x20

/-- `PANEL_OPS`, the requests that need `PSTATE = Ready` (60 R253). -/
def panelOp : Instr → Bool
  | .select _ | .unselect _ | .wrcmd _ _ | .wrdata _ _ _ | .init _ | .color565 _ _ _ _ => false
  | .setwin _ _ _ _ _ | .drawPixel _ _ _ _ | .fillRect _ _ _ _ _ _ | .fillRectFast _ _ _ _ _ _ | .drawImage _ _ _ _ _ _
  | .writeString _ _ _ _ _ _ _ | .fillScreen _ _ | .fillScreenFast _ _ | .invert _ _ | .setGamma _ _ => true

/-- `src(k)` lies inside its source: a byte of the list, of `LINEBUF`, or of host memory (20 R75, 43 R195). -/
def Src.InRange (c : Config) (src : Src) (k : Nat) : Prop :=
  match src with
  | .bytes l => k < l.length
  | .lineBuf => k < 2 * c.panelW
  | .mem a => a + k < c.hostMemSize
  | .crop a w w' => a + 2 * (k / 2 / w' * w + k / 2 % w') + k % 2 < c.hostMemSize

/-- A step list's entry sends, writes and reads only what the spec lets the block send, write and read. -/
def Micro.Admissible (c : Config) : Micro → Prop
  | .tx src k => src.InRange c k
  | .dma src n => 1 ≤ n ∧ ∀ k, k < n → src.InRange c k
  | .setWindow w => w.inPanel c = true
  | .lineByte k _ => k < 2 * c.panelW
  | .setResult v => v.extractLsb' 16 16 = 0
  | .strDraw t len _ _ _ _ => t.addr + len ≤ c.hostMemSize
  | _ => True

/-- The invariant every step keeps. -/
structure State.Inv (s : State) : Prop where
  /-- Host memory is canonical and holds nothing outside `0 .. HOST_MEM_SIZE-1` (20 R72). -/
  memory     : Mem.wf s.mem = true
  memoryIn   : ∀ c ∈ s.mem, c.1 < s.cfg.val.hostMemSize
  /-- `LINEBUF` has `2 * PANEL_W` bytes (10 R52). -/
  lineBuf    : s.lineBuf.length = 2 * s.cfg.val.panelW
  /-- `WINDOW` is inside the panel (42 R183). -/
  window     : s.window.inPanel s.cfg.val = true
  /-- `RESULT[31:16]` is 0 (10 R42). -/
  result     : s.result.extractLsb' 16 16 = 0
  /-- A fault is recorded exactly while halted (10 R36, R40; 60 R259, R260). -/
  halted     : s.seq = .halted ↔ s.faultCode ≠ 0
  faultCode  : s.faultCode.toNat ≤ 5
  faultOp    : s.faultCode = 0 → s.faultOp = 0
  /-- Nothing runs unless `SEQ = EXEC` and the request has begun (60 R260, R267). -/
  quiet      : s.seq ≠ .exec → s.todo = none
  notBegun   : s.todo = none → s.dma = .idle ∧ s.timer = .idle ∧ s.hung = false
  /-- The DMA engine and the delay timer never run at once (60 R267). -/
  oneAgent   : s.dma = .idle ∨ s.timer = .idle
  /-- `DONE` is 0 while a burst is in flight (40 R146, R147). -/
  doneLow    : s.dma ≠ .idle → s.done = false
  /-- `0 <= i <= n`, `n >= 1` (10 R51), and the burst reads only what it may. -/
  burst      : ∀ src n i, s.dma = .active src n i → 1 ≤ n ∧ i ≤ n ∧ ∀ k, k < n → src.InRange s.cfg.val k
  /-- The rest of the request sends, writes and reads only what it may (20 R75, R77; 42 R183). -/
  steps      : ∀ ops, s.todo = some ops → ∀ op ∈ ops, op.Admissible s.cfg.val

end Sys2Proof.Machine
end

