-- ==== Sys2Proof/Certificates/Slice0/Obligations.lean ====
section
/-! DEFINITION. The statements for the provers: encoding, the step, each request's effect, faults, the host's port, whole-machine
rules, equivalences and the invariant. Each docstring names the rules it formalises. -/

open Sys2Proof Sys2Proof.Machine

/-! ## Encoding -/

/-- Every request is read back from its own descriptor, whatever its operands (30 R105, R107, R111). -/
def Obligations.DecodeOfEncode : Prop := ∀ i : Instr, decode (encode i) = .ok i

/-- Each descriptor that decodes is the one descriptor of its request (30 R110, R111). -/
def Obligations.EncodeOfDecode : Prop := ∀ (d : Desc) (i : Instr), decode d = .ok i → encode i = d

/-- The decoder's masks accept exactly the descriptors that are legal field by field (30 R103, R104, R107, R108, R109). -/
def Obligations.DecodesExactlyWellFormed : Prop :=
  ∀ d : Desc, (∃ i, decode d = .ok i) ↔ d.wellFormed = true

/-- Two descriptors that differ only in `MODE` decode to the same request with the other mode (30 R102, R111). -/
def Obligations.ModeBitChangesModeOnly : Prop :=
  ∀ (d : Desc) (i : Instr), decode d = .ok i →
    decode { d with w0 := d.w0 ^^^ 0x100 } = .ok (withMode (if modeOf i = .byte then .burst else .byte) i)

/-- Words written out from the spec's formats and examples, one of each family (30 R105, R107; 95 V-DEC). -/
def Obligations.SpecWordsDecode : Prop :=
  decode ⟨0x00000001, 0, 0, 0⟩ = .ok (.select .byte) ∧
  decode ⟨0x00FF0003, 0, 0, 0⟩ = .ok (.wrcmd .byte 0xFF) ∧
  decode ⟨0x00000104, 0x40, 4, 0⟩ = .ok (.wrdata .burst 0x40 4) ∧
  decode ⟨0x00000005, 0x00000000, 0x00000001, 0⟩ = .ok (.setwin .byte 0 0 1 0) ∧
  decode ⟨0x00000106, 0, 0, 0⟩ = .ok (.init .burst) ∧
  decode ⟨0x00000013, 0x00000000, 0x00010002, 0x00000009⟩ = .ok (.drawImage .byte 0 0 2 1 9) ∧
  decode ⟨0x00010017, 0, 0, 0⟩ = .ok (.invert .byte true) ∧
  decode ⟨0x00000020, 0x00563412, 0, 0⟩ = .ok (.color565 .byte 0x12 0x34 0x56) ∧
  decode ⟨0x00020017, 0, 0, 0⟩ = .error (.reservedBits 0x17) ∧
  decode ⟨0x00000010, 0x00020001, 5, 0x0000F800⟩ = .error (.nonzeroField 0x10) ∧
  decode ⟨0, 0, 0, 0⟩ = .error (.unassignedOp 0)

/-! ## The step -/

/-- A latched request that decodes is run by the step as `exec` of it, when nobody is due to come between; when the block is
due for one turn, the step starts it; and a descriptor placed for the next step is run by it (30 R114). -/
def Obligations.StepRunsDecodedRequest : Prop :=
  (∀ (s : State) (i : Instr), s.Latched → s.sched = [] → decode s.lreq = .ok i → step s = exec i s) ∧
  (∀ (s : State) (i : Instr) (rest : List Turn), s.Latched → s.sched = .block :: rest → decode s.lreq = .ok i →
    step s = .next (State.start { s with sched := rest } (plan i s))) ∧
  (∀ (s : State) (nbits w : Nat) (i : Instr), decodeTableWord nbits w = some i →
    step (s.withFetchWord nbits w) = exec i (s.withFetchWord nbits w))

/-- A descriptor that decodes to no request raises `ILLEGAL_REQUEST` and does nothing else (60 R252). -/
def Obligations.IllegalDescriptorFaults : Prop :=
  ∀ (s : State) (e : DecodeError), s.Latched → decode s.lreq = .error e →
    (s.sched = [] → step s = .next (s.raise .illegalRequest)) ∧
    (∀ rest, s.sched = .block :: rest → step s = .next (State.raise { s with sched := rest } .illegalRequest))

/-! ## The requests: encoding and effect. Each equation says the whole next state, so it is the frame too.

What an equation says of `bus` and `draws` (how many frames were offered, log 3) and of `todo`, `hung`, `sched`, `host` and
`seen` (log 1, 2, 4, 14) is the model's book-keeping, no rule of the spec. -/

/-- SELECT (40 R142). -/
def Obligations.SelectDrivesCsLow : Prop :=
  ∀ m : Mode, decode ⟨0x00000001 ||| modeBit m, 0, 0, 0⟩ = .ok (.select m) ∧
    ∀ s : State, s.Latched →
      exec (.select m) s = .next { s with cs := false, trace := s.trace ++ s.lowEvents, seq := .idle }

/-- UNSELECT (40 R143). -/
def Obligations.UnselectDrivesCsHigh : Prop :=
  ∀ m : Mode, decode ⟨0x00000002 ||| modeBit m, 0, 0, 0⟩ = .ok (.unselect m) ∧
    ∀ s : State, s.Latched →
      exec (.unselect m) s = .next { s with cs := true, trace := s.trace ++ s.highEvents, seq := .idle }

/-- WRCMD: one synchronous command byte in either mode, CS neither changed nor checked; `TRANSPORT` when the frame ends in
an error (40 R144). -/
def Obligations.WrcmdSendsCommandByte : Prop :=
  ∀ (m : Mode) (opc : Byte),
    decode ⟨0x00000003 ||| modeBit m ||| imm8Bits opc, 0, 0, 0⟩ = .ok (.wrcmd m opc) ∧
    ∀ s : State, s.Latched →
      (s.frame 0 = .ok →
        exec (.wrcmd m opc) s = .next { s with
          dc := false, trace := s.trace ++ [.byte s.cs false opc], bus := s.bus.drop 1, draws := s.draws + 1,
          seq := .idle }) ∧
      (s.frame 0 = .err →
        exec (.wrcmd m opc) s =
          .next (State.raise { s with dc := false, bus := s.bus.drop 1, draws := s.draws + 1 } .transport))

/-- WRDATA: the buffer goes out as data bytes in ascending address order at the current CS level; an empty buffer only
drives DC; in burst mode `DONE` is 0 once the burst has started; a range that is not inside host memory takes `BUFFER`
before anything; a frame that ends in an error takes `TRANSPORT` after the bytes before it (40 R145). -/
def Obligations.WrdataSendsBuffer : Prop :=
  ∀ (m : Mode) (addr len : Word),
    decode ⟨0x00000004 ||| modeBit m, addr, len, 0⟩ = .ok (.wrdata m addr len) ∧
    ∀ s : State, s.Latched →
      (bufOK s.cfg.val addr.toNat len.toNat = true → s.FramesOk len.toNat →
        exec (.wrdata m addr len) s = .next { s with
          dc := true
          done := if len = 0 then s.done else s.doneAfter m
          trace := s.trace ++ dataEvents s.cs (s.memBytes addr.toNat len.toNat)
          bus := s.bus.drop len.toNat
          draws := s.draws + len.toNat
          seq := .idle }) ∧
      (m = .burst → bufOK s.cfg.val addr.toNat len.toNat = true → len ≠ 0 →
        (s.start (plan (.wrdata m addr len) s)).runBlock 2 =
          { s with todo := some [], dc := true, done := false, dma := .active (.mem addr.toNat) len.toNat 0 }) ∧
      (bufOK s.cfg.val addr.toNat len.toNat = false → exec (.wrdata m addr len) s = .next (s.raise .buffer)) ∧
      (∀ k, bufOK s.cfg.val addr.toNat len.toNat = true → k < len.toNat → s.FramesOk k → s.frame k = .err →
        exec (.wrdata m addr len) s = .next (State.raise { s with
          dc := true
          done := m == .byte && s.done
          trace := s.trace ++ dataEvents s.cs (s.memBytes addr.toNat k)
          bus := s.bus.drop (k + 1)
          draws := s.draws + (k + 1) } .transport))

/-- SETWIN: the eleven bytes of the window sequence at the current CS level, then `WINDOW`; a frame that ends in an error
takes `TRANSPORT`, leaves `WINDOW`, and the bytes before it stay on the wire (42 R180, R181, R182). -/
def Obligations.SetwinSelectsWindow : Prop :=
  ∀ (m : Mode) (x0 y0 x1 y1 : Half),
    decode ⟨0x00000005 ||| modeBit m, y0 ++ x0, y1 ++ x1, 0⟩ = .ok (.setwin m x0 y0 x1 y1) ∧
    ∀ s : State, s.Latched → s.pstate = .ready → Window.inPanel ⟨x0, y0, x1, y1⟩ s.cfg.val = true →
      (s.FramesOk 11 →
        exec (.setwin m x0 y0 x1 y1) s = .next { s with
          dc := false
          window := ⟨x0, y0, x1, y1⟩
          done := s.doneAfter m
          trace := s.trace ++ windowEvents s.cfg.val s.cs ⟨x0, y0, x1, y1⟩
          bus := s.bus.drop 11
          draws := s.draws + 11
          seq := .idle }) ∧
      (∀ k, k < 11 → s.FramesOk k → s.frame k = .err →
        ∃ t, exec (.setwin m x0 y0 x1 y1) s = .next t ∧ t.seq = .halted ∧ t.faultCode = 0x01 ∧ t.cs = true ∧
          t.window = s.window ∧
          t.trace = s.trace ++ (windowEvents s.cfg.val s.cs ⟨x0, y0, x1, y1⟩).take k ++ s.highEvents)

/-- INIT in every panel state: select, the reset pulse with its settle delay, every entry of every script in order, Ready,
unselect; when a frame ends in an error, `PSTATE` stays ScriptExecuting and fault entry releases CS, after the events
before that frame (41 R160, R162 to R166, R168). -/
def Obligations.InitRunsScripts : Prop :=
  ∀ (m : Mode) (s : State), s.Latched →
    let pulse := (if s.rst then [.rstLow] else []) ++ [.delay s.cfg.val.resetSettleMs, .rstHigh]
    let events := pulse ++ (allEntries s.cfg.val).flatMap entryEvents
    let n := ((allEntries s.cfg.val).map fun e => 1 + e.args.length).sum
    (s.FramesOk n →
      exec (.init m) s = .next { s with
        cs := true
        dc := (allEntries s.cfg.val).foldl (fun _ e => !e.args.isEmpty) s.dc
        rst := true
        pstate := .ready
        done := if (allEntries s.cfg.val).any (fun e => !e.args.isEmpty) then s.doneAfter m else s.done
        trace := s.trace ++ s.lowEvents ++ events ++ [.csHigh]
        bus := s.bus.drop n
        draws := s.draws + n
        seq := .idle }) ∧
    (∀ k, k < n → s.FramesOk k → s.frame k = .err →
      exec (.init m) s = .next { s.failed m events k with rst := true, pstate := .scriptExecuting })

/-- DRAW_PIXEL: a 1 by 1 window and two bytes; off the panel a no-op that emits nothing (43 R193). When a frame ends in an
error, the events before it stay, and `WINDOW` is written only after the window sequence (60 R258, 42 R181). -/
def Obligations.DrawPixelPaints : Prop :=
  ∀ (m : Mode) (x y color : Half),
    decode ⟨0x00000010 ||| modeBit m, y ++ x, 0, (0 : Half) ++ color⟩ = .ok (.drawPixel m x y color) ∧
    ∀ s : State, s.Latched → s.pstate = .ready →
      (x.toNat < s.cfg.val.panelW ∧ y.toNat < s.cfg.val.panelH → s.FramesOk 13 →
        exec (.drawPixel m x y color) s = .next (s.painted m x.toNat y.toNat 1 1 [hi color, lo color])) ∧
      (∀ k, x.toNat < s.cfg.val.panelW ∧ y.toNat < s.cfg.val.panelH → k < 13 → s.FramesOk k → s.frame k = .err →
        exec (.drawPixel m x y color) s = .next (s.paintFailed m x.toNat y.toNat 1 1 [hi color, lo color] k)) ∧
      (s.cfg.val.panelW ≤ x.toNat ∨ s.cfg.val.panelH ≤ y.toNat → exec (.drawPixel m x y color) s = .next s.passed)

/-- FILL_RECT: the clipped rectangle, `2 * w' * h'` pixel bytes, as far as the frames complete (60 R258); a no-op when the
clipped rectangle is empty (43 R191, R194). -/
def Obligations.FillRectPaints : Prop :=
  ∀ (m : Mode) (x y w h color : Half) (s : State), s.Latched → s.pstate = .ready →
    (∀ w' h', w' = min w.toNat (s.cfg.val.panelW - x.toNat) → h' = min h.toNat (s.cfg.val.panelH - y.toNat) →
      x.toNat < s.cfg.val.panelW → y.toNat < s.cfg.val.panelH →
      (0 < w' → 0 < h' → s.FramesOk (11 + 2 * (w' * h')) →
        exec (.fillRect m x y w h color) s =
          .next (s.painted m x.toNat y.toNat w' h' (pixelBytes (w' * h') color))) ∧
      (∀ k, 0 < w' → 0 < h' → k < 11 + 2 * (w' * h') → s.FramesOk k → s.frame k = .err →
        exec (.fillRect m x y w h color) s =
          .next (s.paintFailed m x.toNat y.toNat w' h' (pixelBytes (w' * h') color) k)) ∧
      (w' = 0 ∨ h' = 0 → exec (.fillRect m x y w h color) s = .next s.passed)) ∧
    (s.cfg.val.panelW ≤ x.toNat ∨ s.cfg.val.panelH ≤ y.toNat → exec (.fillRect m x y w h color) s = .next s.passed)

/-- FILL_RECT_FAST: the same, and `LINEBUF` holds the scanline once the window sequence is sent (43 R191, R195; 60 R258). -/
def Obligations.FillRectFastPaints : Prop :=
  ∀ (m : Mode) (x y w h color : Half) (s : State), s.Latched → s.pstate = .ready →
    s.lineBuf.length = 2 * s.cfg.val.panelW →
    (∀ w' h', w' = min w.toNat (s.cfg.val.panelW - x.toNat) → h' = min h.toNat (s.cfg.val.panelH - y.toNat) →
      x.toNat < s.cfg.val.panelW → y.toNat < s.cfg.val.panelH →
      (0 < w' → 0 < h' → s.FramesOk (11 + 2 * (w' * h')) →
        exec (.fillRectFast m x y w h color) s =
          .next { s.painted m x.toNat y.toNat w' h' (pixelBytes (w' * h') color) with
            lineBuf := pixelBytes w' color ++ s.lineBuf.drop (2 * w') }) ∧
      (∀ k, 0 < w' → 0 < h' → k < 11 + 2 * (w' * h') → s.FramesOk k → s.frame k = .err →
        exec (.fillRectFast m x y w h color) s =
          .next { s.paintFailed m x.toNat y.toNat w' h' (pixelBytes (w' * h') color) k with
            lineBuf := if k < 11 then s.lineBuf else pixelBytes w' color ++ s.lineBuf.drop (2 * w') }) ∧
      (w' = 0 ∨ h' = 0 → exec (.fillRectFast m x y w h color) s = .next s.passed)) ∧
    (s.cfg.val.panelW ≤ x.toNat ∨ s.cfg.val.panelH ≤ y.toNat →
      exec (.fillRectFast m x y w h color) s = .next s.passed)

/-- DRAW_IMAGE: the whole buffer when the rectangle is inside; partly outside, nothing with `skip` and the visible part,
row by row, with `crop`; fully outside or empty, nothing (43 R191, R197). What it sends stays up to a frame that ends in an
error (60 R258). -/
def Obligations.DrawImagePaints : Prop :=
  ∀ (m : Mode) (x y w h : Half) (addr : Word) (s : State), s.Latched → s.pstate = .ready →
    (clip s.cfg.val x.toNat y.toNat w.toNat h.toNat = none → exec (.drawImage m x y w h addr) s = .next s.passed) ∧
    (clip s.cfg.val x.toNat y.toNat w.toNat h.toNat = some (w.toNat, h.toNat) →
      bufOK s.cfg.val addr.toNat (2 * w.toNat * h.toNat) = true → s.FramesOk (11 + 2 * (w.toNat * h.toNat)) →
      exec (.drawImage m x y w h addr) s =
        .next (s.painted m x.toNat y.toNat w.toNat h.toNat (s.memBytes addr.toNat (2 * w.toNat * h.toNat)))) ∧
    (∀ k, clip s.cfg.val x.toNat y.toNat w.toNat h.toNat = some (w.toNat, h.toNat) →
      bufOK s.cfg.val addr.toNat (2 * w.toNat * h.toNat) = true → k < 11 + 2 * (w.toNat * h.toNat) → s.FramesOk k →
      s.frame k = .err →
      exec (.drawImage m x y w h addr) s =
        .next (s.paintFailed m x.toNat y.toNat w.toNat h.toNat (s.memBytes addr.toNat (2 * w.toNat * h.toNat)) k)) ∧
    (∀ w' h', clip s.cfg.val x.toNat y.toNat w.toNat h.toNat = some (w', h') → (w', h') ≠ (w.toNat, h.toNat) →
      (s.cfg.val.imageClipMode = .skip → exec (.drawImage m x y w h addr) s = .next s.passed) ∧
      (s.cfg.val.imageClipMode = .crop → bufOK s.cfg.val addr.toNat (2 * w.toNat * h.toNat) = true →
        s.FramesOk (11 + 2 * (w' * h')) →
        exec (.drawImage m x y w h addr) s =
          .next (s.painted m x.toNat y.toNat w' h' (s.cropBytes addr.toNat w.toNat w' h'))) ∧
      (∀ k, s.cfg.val.imageClipMode = .crop → bufOK s.cfg.val addr.toNat (2 * w.toNat * h.toNat) = true →
        k < 11 + 2 * (w' * h') → s.FramesOk k → s.frame k = .err →
        exec (.drawImage m x y w h addr) s =
          .next (s.paintFailed m x.toNat y.toNat w' h' (s.cropBytes addr.toNat w.toNat w' h') k)))

/-- WRITE_STRING: in one select/unselect pair, the cells of the NUL-terminated string at `addr` in the layout of the wrap,
stop and skip rules, each a window and its pixels (43 R200 to R202, R204). When a frame ends in an error, the events before
it stay and `WINDOW` is the last cell whose window sequence was sent (60 R258, 42 R181). -/
def Obligations.WriteStringDrawsCells : Prop :=
  ∀ (m : Mode) (fontIdx : Byte) (x y fg bg : Half) (addr : Word) (s : State) (str : List Byte),
    s.Latched → s.pstate = .ready → fontIdx.toNat < s.cfg.val.fontCount →
    addr.toNat + str.length < s.cfg.val.hostMemSize → s.memBytes addr.toNat str.length = str →
    (∀ ch ∈ str, ch ≠ 0) → Mem.read s.mem (addr.toNat + str.length) = 0 →
    let f := font s.cfg.val fontIdx.toNat
    let cells := layout s.cfg.val f str x.toNat y.toNat false
    let events := cells.flatMap (cellEvents s.cfg.val f fg bg)
    let size := 11 + 2 * (f.width * f.height)
    let n := cells.length * size
    (s.FramesOk n →
      exec (.writeString m fontIdx x y fg bg addr) s = .next { s with
        cs := true
        dc := if cells = [] then s.dc else true
        window := match cells.getLast? with
          | some g => cellWindow f g
          | none => s.window
        done := if cells = [] then s.done else s.doneAfter m
        trace := s.trace ++ s.lowEvents ++ events ++ [.csHigh]
        bus := s.bus.drop n
        draws := s.draws + n
        seq := .idle }) ∧
    (∀ k, k < n → s.FramesOk k → s.frame k = .err →
      exec (.writeString m fontIdx x y fg bg addr) s = .next { s.failed m events k with
        window := match (cells.take ((k + size - 11) / size)).getLast? with
          | some g => cellWindow f g
          | none => s.window })

/-- FILL_SCREEN and FILL_SCREEN_FAST: every pixel of the panel, as far as the frames complete (43 R198, R199; 60 R258). -/
def Obligations.FillScreenPaints : Prop :=
  ∀ (m : Mode) (color : Half) (s : State), s.Latched → s.pstate = .ready →
    let bytes := pixelBytes (s.cfg.val.panelW * s.cfg.val.panelH) color
    let n := 11 + 2 * (s.cfg.val.panelW * s.cfg.val.panelH)
    (s.FramesOk n →
      exec (.fillScreen m color) s = .next (s.painted m 0 0 s.cfg.val.panelW s.cfg.val.panelH bytes) ∧
      (s.lineBuf.length = 2 * s.cfg.val.panelW →
        exec (.fillScreenFast m color) s =
          .next { s.painted m 0 0 s.cfg.val.panelW s.cfg.val.panelH bytes with
            lineBuf := pixelBytes s.cfg.val.panelW color })) ∧
    (∀ k, k < n → s.FramesOk k → s.frame k = .err →
      exec (.fillScreen m color) s = .next (s.paintFailed m 0 0 s.cfg.val.panelW s.cfg.val.panelH bytes k) ∧
      (s.lineBuf.length = 2 * s.cfg.val.panelW →
        exec (.fillScreenFast m color) s =
          .next { s.paintFailed m 0 0 s.cfg.val.panelW s.cfg.val.panelH bytes k with
            lineBuf := if k < 11 then s.lineBuf else pixelBytes s.cfg.val.panelW color }))

/-- INVERT: one command byte, bracketed, and no record of the inversion; `W0[23:17]` must be 0 (44 R230). -/
def Obligations.InvertSendsCommand : Prop :=
  ∀ (m : Mode) (on : Bool),
    decode ⟨0x00000017 ||| modeBit m ||| (if on then 0x00010000 else 0), 0, 0, 0⟩ = .ok (.invert m on) ∧
    (∀ b : Byte, 1 < b.toNat →
      decode ⟨0x00000017 ||| modeBit m ||| imm8Bits b, 0, 0, 0⟩ = .error (.reservedBits 0x17)) ∧
    ∀ s : State, s.Latched →
      (s.pstate ≠ .ready → exec (.invert m on) s = .next (s.raise .notReady)) ∧
      (s.pstate = .ready → s.frame 0 = .ok →
        exec (.invert m on) s = .next { s with
          cs := true
          dc := false
          trace := s.trace ++ s.lowEvents
            ++ [.byte false false (if on then s.cfg.val.opcInvon else s.cfg.val.opcInvoff), .csHigh]
          bus := s.bus.drop 1
          draws := s.draws + 1
          seq := .idle }) ∧
      (s.pstate = .ready → s.frame 0 = .err →
        exec (.invert m on) s = .next (State.raise { s with
          cs := false
          dc := false
          trace := s.trace ++ s.lowEvents
          bus := s.bus.drop 1
          draws := s.draws + 1 } .transport))

/-- SET_GAMMA: the command and the unchecked curve byte, bracketed (44 R231). -/
def Obligations.SetGammaSendsCurve : Prop :=
  ∀ (m : Mode) (curve : Byte),
    decode ⟨0x00000018 ||| modeBit m ||| imm8Bits curve, 0, 0, 0⟩ = .ok (.setGamma m curve) ∧
    ∀ s : State, s.Latched →
      (s.pstate ≠ .ready → exec (.setGamma m curve) s = .next (s.raise .notReady)) ∧
      (s.pstate = .ready → s.FramesOk 2 →
        exec (.setGamma m curve) s = .next { s with
          cs := true
          dc := true
          done := s.doneAfter m
          trace := s.trace ++ s.lowEvents
            ++ [.byte false false s.cfg.val.opcGamset, .byte false true curve, .csHigh]
          bus := s.bus.drop 2
          draws := s.draws + 2
          seq := .idle }) ∧
      (s.pstate = .ready → s.frame 0 = .err →
        exec (.setGamma m curve) s = .next (State.raise { s with
          cs := false
          dc := false
          trace := s.trace ++ s.lowEvents
          bus := s.bus.drop 1
          draws := s.draws + 1 } .transport)) ∧
      (s.pstate = .ready → s.frame 0 = .ok → s.frame 1 = .err →
        exec (.setGamma m curve) s = .next (State.raise { s with
          cs := false
          dc := true
          done := m == .byte && s.done
          trace := s.trace ++ s.lowEvents ++ [.byte false false s.cfg.val.opcGamset]
          bus := s.bus.drop 2
          draws := s.draws + 2 } .transport))

/-- COLOR565: `RESULT` takes the packed colour in any panel state; no event; the zero fields of its format, and the corner
cases of the rule (45 R240). -/
def Obligations.Color565PacksResult : Prop :=
  (∀ (m : Mode) (r g b : Byte),
    decode ⟨0x00000020 ||| modeBit m, (0 : Byte) ++ b ++ g ++ r, 0, 0⟩ = .ok (.color565 m r g b) ∧
    ∀ s : State, s.Latched →
      exec (.color565 m r g b) s = .next { s with result := (pack565 r g b).setWidth 32, seq := .idle }) ∧
  (∀ (m : Mode) (w1 w2 w3 : Word), w1.extractLsb' 24 8 ≠ 0 ∨ w2 ≠ 0 ∨ w3 ≠ 0 →
    decode ⟨0x00000020 ||| modeBit m, w1, w2, w3⟩ = .error (.nonzeroField 0x20)) ∧
  pack565 0 0 0 = 0x0000 ∧ pack565 255 255 255 = 0xFFFF ∧ pack565 7 3 7 = 0x0000 ∧ pack565 8 4 8 = 0x0821

/-- `Pack565` is the shifted and masked sum of the rule, and keeps the top 5, 6 and 5 bits (45 R241). -/
def Obligations.Pack565Bits : Prop :=
  ∀ r g b : Byte,
    pack565 r g b = ((r &&& 0xF8).setWidth 16 <<< 8) ||| ((g &&& 0xFC).setWidth 16 <<< 3) ||| (b >>> 3).setWidth 16 ∧
    pack565 r g b = ((r.extractLsb' 3 5).setWidth 16 <<< 11) ||| ((g.extractLsb' 2 6).setWidth 16 <<< 5)
      ||| (b.extractLsb' 3 5).setWidth 16 ∧
    (pack565 r g b).extractLsb' 11 5 = r.extractLsb' 3 5 ∧
    (pack565 r g b).extractLsb' 5 6 = g.extractLsb' 2 6 ∧
    (pack565 r g b).extractLsb' 0 5 = b.extractLsb' 3 5

/-! ## Faults -/

/-- A request of `PANEL_OPS` with `PSTATE != Ready` takes `NOT_READY`; no other request ever does (60 R253). -/
def Obligations.NotReadyFault : Prop :=
  ∀ (i : Instr) (s : State),
    (panelOp i = true → s.pstate ≠ .ready → exec i s = .next (s.raise .notReady)) ∧
    (plan i s = .error .notReady → panelOp i = true ∧ s.pstate ≠ .ready)

/-- `BAD_OPERAND` is SETWIN's for a window not inside the panel and WRITE_STRING's for a font index out of range, after the
Ready check, and no other request's (60 R254, R256). -/
def Obligations.BadOperandFault : Prop :=
  (∀ (m : Mode) (x0 y0 x1 y1 : Half) (s : State), s.pstate = .ready →
    ¬ (x0.toNat ≤ x1.toNat ∧ x1.toNat < s.cfg.val.panelW ∧ y0.toNat ≤ y1.toNat ∧ y1.toNat < s.cfg.val.panelH) →
    exec (.setwin m x0 y0 x1 y1) s = .next (s.raise .badOperand)) ∧
  (∀ (m : Mode) (f : Byte) (x y fg bg : Half) (addr : Word) (s : State), s.pstate = .ready →
    s.cfg.val.fontCount ≤ f.toNat → exec (.writeString m f x y fg bg addr) s = .next (s.raise .badOperand)) ∧
  (∀ (i : Instr) (s : State), plan i s = .error .badOperand →
    (∃ m x0 y0 x1 y1, i = .setwin m x0 y0 x1 y1) ∨ (∃ m f x y fg bg addr, i = .writeString m f x y fg bg addr))

/-- `BUFFER` is raised, before any event, by WRDATA, by DRAW_IMAGE when it would draw, and by WRITE_STRING when there is no
NUL before the end of host memory (60 R257). -/
def Obligations.BufferFault : Prop :=
  ∀ s : State, s.Latched →
    (∀ (m : Mode) (addr len : Word), len ≠ 0 → s.cfg.val.hostMemSize < addr.toNat + len.toNat →
      exec (.wrdata m addr len) s = .next (s.raise .buffer)) ∧
    (∀ (m : Mode) (x y w h : Half) (addr : Word) (w' h' : Nat), s.pstate = .ready →
      clip s.cfg.val x.toNat y.toNat w.toNat h.toNat = some (w', h') →
      (w' = w.toNat ∧ h' = h.toNat) ∨ s.cfg.val.imageClipMode = .crop →
      s.cfg.val.hostMemSize < addr.toNat + 2 * w.toNat * h.toNat →
      exec (.drawImage m x y w h addr) s = .next (s.raise .buffer)) ∧
    (∀ (m : Mode) (f : Byte) (x y fg bg : Half) (addr : Word), s.pstate = .ready → f.toNat < s.cfg.val.fontCount →
      (∀ a, addr.toNat ≤ a → a < s.cfg.val.hostMemSize → Mem.read s.mem a ≠ 0) →
      exec (.writeString m f x y fg bg addr) s = .next (s.raise .buffer))

/-- Fault entry: the record, the DMA engine idle, CS released with an event only if it was 0, `HALTED`; DC, RST, `PSTATE`,
`WINDOW`, `DONE`, `RESULT`, `REQ`, `LREQ` and everything else keep their values (60 R255), with the codes of 60 R250. What
becomes of the model's own `todo` and `hung` is left open here (log 20). -/
def Obligations.FaultEntryRecords : Prop :=
  (∀ (s : State) (c : FaultCause), ∃ (todo : Option (List Micro)) (hung : Bool), s.raise c = { s with
    faultCode := c.code
    faultOp := s.lreq.w0.extractLsb' 0 8
    dma := .idle
    cs := true
    trace := s.trace ++ s.highEvents
    seq := .halted
    todo := todo
    hung := hung }) ∧
  FaultCause.code .transport = 0x01 ∧ FaultCause.code .illegalRequest = 0x02 ∧ FaultCause.code .notReady = 0x03 ∧
  FaultCause.code .badOperand = 0x04 ∧ FaultCause.code .buffer = 0x05

/-- A request that ends in any fault but `TRANSPORT` has done nothing but fault entry (60 R258). -/
def Obligations.PreciseFaults : Prop :=
  ∀ (i : Instr) (s t : State), s.Latched → exec i s = .next t → t.seq = .halted → t.faultCode ≠ 0x01 →
    ∃ c : FaultCause, c ≠ .transport ∧ t = s.raise c

/-- An errored frame takes `TRANSPORT` at once and is the request's last; a request that takes `TRANSPORT` has such a frame;
a frame that never completes raises nothing (60 R251; 40 R150). -/
def Obligations.TransportFaultAtErrorFrame : Prop :=
  ∀ (i : Instr) (s t : State), s.Latched → exec i s = .next t →
    (∀ k, s.draws + k < t.draws → s.frame k = .err →
      t.draws = s.draws + k + 1 ∧ t.seq = .halted ∧ t.faultCode = 0x01 ∧ t.cs = true) ∧
    (t.seq = .halted → t.faultCode = 0x01 → ∃ k, t.draws = s.draws + k + 1 ∧ s.frame k = .err) ∧
    (∀ k, s.draws + k < t.draws → s.frame k = .never →
      t.draws = s.draws + k + 1 ∧ t.seq = .exec ∧ t.hung = true ∧ t.faultCode = s.faultCode)

/-- While halted nothing of the block changes but by a reset: no request starts, and the fault record stays
(60 R259, R260; 70 R284). -/
def Obligations.HaltedUntilReset : Prop :=
  ∀ s t : State, s.seq = .halted → step s = .next t →
    ∃ (mem : List Host.Cell) (seen : List Word) (host : List HostOp) (sched : List Turn),
      t = { s with mem := mem, seen := seen, host := host, sched := sched } ∨
      t = State.resetBlock { s with mem := mem, seen := seen, host := host, sched := sched }

/-! ## The other agents -/

/-- The DMA engine's steps: a frame at the lines' current levels, the completion notification, and a frame that ends in an
error, which idles the engine, leaves `DONE` and takes the fault; and nothing else in the block sets `DONE`
(40 R147, R148; 10 R49). -/
def Obligations.DmaEngineSteps : Prop :=
  ∀ s : State, s.canStep = true →
    (∀ src n i, s.dma = .active src n i → i < n → s.frame 0 = .ok →
      s.blockStep = { s with
        trace := s.trace ++ [.byte s.cs s.dc (s.srcByte src i)]
        dma := .active src n (i + 1)
        bus := s.bus.drop 1
        draws := s.draws + 1 }) ∧
    (∀ src n, s.dma = .active src n n → s.blockStep = { s with done := true, dma := .idle }) ∧
    (∀ src n i, s.dma = .active src n i → i < n → s.frame 0 = .err →
      s.blockStep = State.raise { s with bus := s.bus.drop 1, draws := s.draws + 1 } .transport ∧
      s.blockStep.done = s.done) ∧
    (s.done = false → s.blockStep.done = true → ∃ src n i, s.dma = .active src n i ∧ n ≤ i)

/-- `Delay(ms)`: the event and the wait are one step; the sequencer then holds until the timer's step, which changes nothing
else (60 R265). -/
def Obligations.DelayHoldsUntilTimer : Prop :=
  ∀ s : State, s.canStep = true → s.dma = .idle →
    (∀ ms rest, s.timer = .idle → s.todo = some (.delay ms :: rest) →
      s.blockStep = { s with trace := s.trace ++ [.delay ms], timer := .waiting ms, todo := some rest }) ∧
    (∀ ms, s.timer = .waiting ms → s.blockStep = { s with timer := .idle })

/-- A frame that never completes: no turn of the block changes anything, a soft reset written meanwhile stays held, and a
hardware reset ends it (60 R271; 70 R284). -/
def Obligations.HungFrameNeverEnds : Prop :=
  ∀ (s : State) (rest : List Turn), s.seq = .exec → s.hung = true →
    (s.sched = .block :: rest → step s = .next { s with sched := rest }) ∧
    (∀ (v : Word) (more : List HostOp), s.sched = .host :: rest →
      s.host = .writeReg (s.cfg.val.blockBase + 0x20) 32 v :: more → step s = .next { s with sched := rest }) ∧
    (s.sched = .hwReset :: rest →
      step s = .next (State.resetBlock { s with sched := rest }) ∧
      (State.resetBlock { s with sched := rest }).seq = .idle)

/-! ## Reset and the host's port -/

/-- Reset, by the hardware in any state and by `CTRL` bit 0 unless a request runs, is one step that puts every piece of state to
its reset value, emits `CsHigh` and `RstHigh` only for a line that changes, and leaves host memory, the configuration and
everything outside the block (70 R280, R281, R282; 10 R44). -/
def Obligations.ResetRestoresResetValues : Prop :=
  (∀ s : State, s.resetBlock = { State.powerOn s.cfg with
    mem := s.mem
    trace := s.trace ++ s.highEvents ++ (if s.rst then [] else [.rstHigh])
    seen := s.seen
    host := s.host
    sched := s.sched
    bus := s.bus
    draws := s.draws }) ∧
  (∀ (s : State) (rest : List Turn), s.sched = .hwReset :: rest →
    step s = .next (State.resetBlock { s with sched := rest })) ∧
  (∀ (s : State) (rest : List Turn) (v : Word) (more : List HostOp), s.seq ≠ .exec → s.sched = .host :: rest →
    s.host = .writeReg (s.cfg.val.blockBase + 0x20) 32 v :: more →
    step s = .next (if v.getLsbD 0 then State.resetBlock { s with sched := rest, host := more }
      else { s with sched := rest, host := more }))

/-- The values of the state after power-on, `STATUS` included (10 R56), and `CleanStart` (70 R288).
Host memory, the inputs from outside and `LINEBUF` are the model's choice (log 1, 2, 3, 7, 8) and are not claimed. -/
def Obligations.PowerOnValues : Prop :=
  ∀ p : Platform,
    let s := State.powerOn p
    s.req = ⟨0, 0, 0, 0⟩ ∧ s.lreq = ⟨0, 0, 0, 0⟩ ∧ s.seq = .idle ∧ s.pstate = .uninitialized ∧
    s.window = ⟨0, 0, 0, 0⟩ ∧ s.cs = true ∧ s.dc = false ∧ s.rst = true ∧ s.done = false ∧ s.faultCode = 0 ∧
    s.faultOp = 0 ∧ s.result = 0 ∧ s.dma = .idle ∧ s.timer = .idle ∧ s.trace = [] ∧ s.status = 0x00000050 ∧
    s.win0 = 0 ∧ s.win1 = 0 ∧ s.CleanStart

/-- A configuration is refused unless it is admitted (00 R8; 70 R285). -/
def Obligations.UnadmittedConfigurationRefused : Prop :=
  ∀ c : Config,
    (configAdmitted c = false → powerOn c = .refused .configuration) ∧
    (c.panelW = 0 ∨ 65535 < c.panelW ∨ c.panelH = 0 ∨ 65535 < c.panelH ∨ c.scripts = [] ∨
      (∃ sc ∈ c.scripts, parseScript sc = none) ∨ (∃ f ∈ c.fonts, f.width = 0 ∨ 16 < f.width ∨ f.height = 0) ∨
      c.hostMemSize = 0 → powerOn c = .refused .configuration)

/-- Every field of `STATUS` mirrors its piece of state, at the bits of the table (10 R34, R37). -/
def Obligations.StatusFields : Prop :=
  ∀ s : State,
    (s.status.getLsbD 0 = true ↔ s.seq = .exec) ∧ (s.status.getLsbD 1 = true ↔ s.seq = .halted) ∧
    s.status.extractLsb' 2 2 = (match s.pstate with
      | .uninitialized => 0b00#2
      | .resetting => 0b01#2
      | .scriptExecuting => 0b10#2
      | .ready => 0b11#2) ∧
    s.status.getLsbD 4 = s.cs ∧ s.status.getLsbD 5 = s.dc ∧ s.status.getLsbD 6 = s.rst ∧ s.status.getLsbD 7 = s.done ∧
    s.status.extractLsb' 8 8 = s.faultCode ∧ s.status.extractLsb' 16 8 = s.faultOp ∧ s.status.extractLsb' 24 8 = 0

/-- A host read of a register returns its value, in every `SEQ` state, and changes nothing of the block
(10 R30, R31, R32, R39, R43; 20 R71, R83). -/
def Obligations.RegisterReads : Prop :=
  ∀ (s : State) (rest : List Turn) (more : List HostOp) (off : Nat), off < 0x40 → off % 4 = 0 → s.sched = .host :: rest →
    s.host = .readReg (s.cfg.val.blockBase + BitVec.ofNat 32 off) 32 :: more →
    step s = .next { s with
      sched := rest
      host := more
      seen := s.seen ++ [match off with
        | 0x00 => s.req.w0
        | 0x04 => s.req.w1
        | 0x08 => s.req.w2
        | 0x0C => s.req.w3
        | 0x10 => s.status
        | 0x14 => s.result
        | 0x18 => s.window.x0.setWidth 32 ||| (s.window.y0.setWidth 32 <<< 16)
        | 0x1C => s.window.x1.setWidth 32 ||| (s.window.y1.setWidth 32 <<< 16)
        | _ => 0] }

/-- Host writes while `SEQ = IDLE`: `REQ[i]` takes the value, and a write to `REQ_W0` latches the descriptor and starts the
request in the same step, with no event (10 R31; 30 R113). -/
def Obligations.HostWritesWhileIdle : Prop :=
  ∀ (s : State) (rest : List Turn) (more : List HostOp) (v : Word), s.seq = .idle → s.sched = .host :: rest →
    (s.host = .writeReg s.cfg.val.blockBase 32 v :: more →
      step s = .next { s with
        sched := rest, host := more, req := ⟨v, s.req.w1, s.req.w2, s.req.w3⟩,
        lreq := ⟨v, s.req.w1, s.req.w2, s.req.w3⟩, seq := .exec, todo := none }) ∧
    (s.host = .writeReg (s.cfg.val.blockBase + 0x04) 32 v :: more →
      step s = .next { s with sched := rest, host := more, req := ⟨s.req.w0, v, s.req.w2, s.req.w3⟩ }) ∧
    (s.host = .writeReg (s.cfg.val.blockBase + 0x08) 32 v :: more →
      step s = .next { s with sched := rest, host := more, req := ⟨s.req.w0, s.req.w1, v, s.req.w3⟩ }) ∧
    (s.host = .writeReg (s.cfg.val.blockBase + 0x0C) 32 v :: more →
      step s = .next { s with sched := rest, host := more, req := ⟨s.req.w0, s.req.w1, s.req.w2, v⟩ })

/-- Host writes to `REQ_W0` to `REQ_W3` and `CTRL` while `SEQ = EXEC` are held: the access has no step and stays the host's
next (10 R32). -/
def Obligations.HostWritesHeldWhileBusy : Prop :=
  ∀ (s : State) (rest : List Turn) (more : List HostOp) (off : Nat) (v : Word), s.seq = .exec → s.sched = .host :: rest →
    off = 0x00 ∨ off = 0x04 ∨ off = 0x08 ∨ off = 0x0C ∨ off = 0x20 →
    s.host = .writeReg (s.cfg.val.blockBase + BitVec.ofNat 32 off) 32 v :: more →
    step s = .next { s with sched := rest }

/-- Host writes to `REQ_W0` to `REQ_W3` while `SEQ = HALTED` have no effect; a write to `CTRL` is accepted (10 R33). -/
def Obligations.HostWritesWhileHalted : Prop :=
  ∀ (s : State) (rest : List Turn) (more : List HostOp) (off : Nat) (v : Word), s.seq = .halted → s.sched = .host :: rest →
    s.host = .writeReg (s.cfg.val.blockBase + BitVec.ofNat 32 off) 32 v :: more →
    (off = 0x00 ∨ off = 0x04 ∨ off = 0x08 ∨ off = 0x0C → step s = .next { s with sched := rest, host := more }) ∧
    (off = 0x20 → v.getLsbD 0 = true → step s = .next (State.resetBlock { s with sched := rest, host := more }))

/-- Host writes to the read-only registers and to the reserved offsets are ignored, and never held (10 R30, R41; 20 R71). -/
def Obligations.ReadOnlyWritesIgnored : Prop :=
  ∀ (s : State) (rest : List Turn) (more : List HostOp) (off : Nat) (v : Word), s.sched = .host :: rest →
    off < 0x40 → off % 4 = 0 → 0x10 ≤ off → off ≠ 0x20 →
    s.host = .writeReg (s.cfg.val.blockBase + BitVec.ofNat 32 off) 32 v :: more →
    step s = .next { s with sched := rest, host := more }

/-- A register access that is not 32 bits wide, or not at a multiple of 4, is refused (20 R71). -/
def Obligations.OddAccessRefused : Prop :=
  ∀ (s : State) (rest : List Turn) (more : List HostOp) (off width : Nat) (v : Word), s.sched = .host :: rest → off < 0x40 →
    width ≠ 32 ∨ off % 4 ≠ 0 →
    s.host = .readReg (s.cfg.val.blockBase + BitVec.ofNat 32 off) width :: more ∨
      s.host = .writeReg (s.cfg.val.blockBase + BitVec.ofNat 32 off) width v :: more →
    step s = .refused (.registerAccessForm width off)

/-- A host write of host memory sets exactly its bytes (20 R76). That a store of several bytes takes effect whole, in one
turn, whatever the block is doing, is the model's choice, no rule of the spec (log 26, DESIGN CHOICE, unsafe for a host whose
wide stores are split). -/
def Obligations.HostStoreWritesExactly : Prop :=
  ∀ (s : State) (rest : List Turn) (more : List HostOp) (a : Nat) (bytes : List Byte), Mem.wf s.mem = true →
    s.sched = .host :: rest → s.host = .store a bytes :: more → a + bytes.length ≤ s.cfg.val.hostMemSize →
    ∃ mem, step s = .next { s with sched := rest, host := more, mem := mem } ∧
      ∀ x, Mem.read mem x = if h : a ≤ x ∧ x < a + bytes.length then bytes[x - a]'(by omega) else Mem.read s.mem x

/-- `SUBMIT`: the four writes of a request's descriptor, made by an idle block's host, latch it (30 R113, R126). -/
def Obligations.SubmitLatchesDescriptor : Prop :=
  ∀ (s : State) (d : Desc) (more : List HostOp), s.seq = .idle → s.sched = [] →
    s.host = submit s.cfg.val.blockBase d ++ more →
    Host.Core.run core 4 s = .next { s with host := more, req := d, lreq := d, seq := .exec, todo := none }

/-- The assembler gives each of the sixteen mnemonics, with its operands in the order of the table, its request with the `MODE`
asked for, and refuses everything else: another mnemonic, another number of operands, an operand that does not fit its field
(30 R125). Two cases are written out. -/
def Obligations.AssemblerChecksFields : Prop :=
  (∀ i : Instr, assemble (mnemonicOf i) (modeOf i) (operandsOf i) = some i) ∧
  (∀ (mnemonic : String) (m : Mode) (operands : List Nat) (i : Instr), assemble mnemonic m operands = some i →
    mnemonic = mnemonicOf i ∧ m = modeOf i ∧ operands = operandsOf i) ∧
  (∀ (m : Mode) (a l : Nat), 2 ^ 32 ≤ a ∨ 2 ^ 32 ≤ l → assemble "WRDATA" m [a, l] = none) ∧
  (∀ (m : Mode) (on : Nat), 2 ≤ on → assemble "INVERT" m [on] = none)

/-! ## Whole-machine rules -/

/-- No request writes host memory, `REQ`, `LREQ` or the configuration, makes a host access, or takes a turn
(20 R76; 10 R31, R45; 70 R282). -/
def Obligations.RequestsLeaveHostSideAlone : Prop :=
  ∀ (i : Instr) (s t : State), exec i s = .next t →
    t.mem = s.mem ∧ t.cfg = s.cfg ∧ t.req = s.req ∧ t.lreq = s.lreq ∧ t.seen = s.seen ∧ t.host = s.host ∧
    t.sched = s.sched

/-- Which requests write which registers: `PSTATE` and RST only INIT (41 R167), `RESULT` only COLOR565 (10 R42), `WINDOW` only
a request that sends a window sequence (42 R181), `LINEBUF` only the fast fills (10 R52), `DONE` only a request in burst mode
(40 R149), DC no request but those that send a byte, CS none of WRCMD, WRDATA, SETWIN and COLOR565 unless it faults
(40 R152). -/
def Obligations.RequestsOwnTheirRegisters : Prop :=
  ∀ (i : Instr) (s t : State), s.Latched → exec i s = .next t →
    ((∀ m, i ≠ .init m) → t.pstate = s.pstate ∧ t.rst = s.rst) ∧
    ((∀ m r g b, i ≠ .color565 m r g b) → t.result = s.result) ∧
    ((panelOp i = false ∨ (∃ m on, i = .invert m on) ∨ ∃ m curve, i = .setGamma m curve) → t.window = s.window) ∧
    ((∀ m x y w h c, i ≠ .fillRectFast m x y w h c) → (∀ m c, i ≠ .fillScreenFast m c) → t.lineBuf = s.lineBuf) ∧
    (modeOf i = .byte → t.done = s.done) ∧
    (((∃ m, i = .select m) ∨ (∃ m, i = .unselect m) ∨ ∃ m r g b, i = .color565 m r g b) →
      t.dc = s.dc ∧ t.draws = s.draws) ∧
    (((∃ m opc, i = .wrcmd m opc) ∨ (∃ m a l, i = .wrdata m a l) ∨ (∃ m x0 y0 x1 y1, i = .setwin m x0 y0 x1 y1) ∨
      ∃ m r g b, i = .color565 m r g b) → t.seq ≠ .halted → t.cs = s.cs)

/-- The wire trace only grows: no step drops, changes or reorders an event (20 R86). -/
def Obligations.TraceOnlyGrows : Prop :=
  ∀ s t : State, step s = .next t → ∃ es : List Event, t.trace = s.trace ++ es

/-- The transitions of `SEQ` in one atomic turn: IDLE to EXEC by a doorbell, EXEC to IDLE by the completion step, EXEC to HALTED
by fault entry, any state to IDLE by a reset; there is no other (10 R46). -/
def Obligations.SequencerTransitions : Prop :=
  ∀ s t : State, s.sched ≠ [] → step s = .next t → t.seq ≠ s.seq →
    (s.seq = .idle ∧ t.seq = .exec ∧ t.lreq = t.req ∧ t.trace = s.trace ∧
      ∃ v more, s.sched.head? = some .host ∧ s.host = .writeReg s.cfg.val.blockBase 32 v :: more ∧
        t = State.doorbell { s with sched := s.sched.tail, host := more } v) ∨
    (s.seq = .exec ∧ t.seq = .idle ∧ s.sched.head? = some .block ∧ s.todo = some [] ∧ s.dma = .idle ∧ s.timer = .idle ∧
      s.hung = false ∧ t = State.complete { s with sched := s.sched.tail }) ∨
    (s.seq = .exec ∧ t.seq = .halted ∧ s.sched.head? = some .block ∧ t.faultCode ≠ 0 ∧ t.cs = true ∧
      ∃ bus draws c, t = State.raise { s with sched := s.sched.tail, bus := bus, draws := draws } c) ∨
    (t.seq = .idle ∧ s.sched.head? = some .hwReset ∧ t = State.resetBlock { s with sched := s.sched.tail }) ∨
    (s.seq = .halted ∧ t.seq = .idle ∧ ∃ v more, s.sched.head? = some .host ∧ v.getLsbD 0 = true ∧
      s.host = .writeReg (s.cfg.val.blockBase + 0x20) 32 v :: more ∧
      t = State.resetBlock { s with sched := s.sched.tail, host := more })

/-- Nothing a request does depends on `LINEBUF`'s contents before it (10 R52). -/
def Obligations.LineBufUnobservable : Prop :=
  ∀ (i : Instr) (s : State) (l : List Byte), s.Latched → s.lineBuf.length = 2 * s.cfg.val.panelW →
    l.length = 2 * s.cfg.val.panelW →
    ∃ (t : State) (l' : List Byte), exec i s = .next t ∧ exec i { s with lineBuf := l } = .next { t with lineBuf := l' }

/-- What the panel shows of a filled rectangle: its pixels, row by row, at their wire coordinates, and none beyond the window
(20 R91, R92, R93; 43 R194), for distinct panel opcodes and no wrap of the origin offset. -/
def Obligations.PanelShowsFilledRectangle : Prop :=
  ∀ (m : Mode) (x y w h color : Half) (s : State) (p : Panel) (w' h' : Nat), s.Latched → s.pstate = .ready →
    clip s.cfg.val x.toNat y.toNat w.toNat h.toNat = some (w', h') → s.FramesOk (11 + 2 * (w' * h')) →
    s.cfg.val.opcCaset ≠ s.cfg.val.opcRaset → s.cfg.val.opcCaset ≠ s.cfg.val.opcRamwr →
    s.cfg.val.opcRaset ≠ s.cfg.val.opcRamwr →
    s.cfg.val.xStart.toNat + s.cfg.val.panelW ≤ 65536 → s.cfg.val.yStart.toNat + s.cfg.val.panelH ≤ 65536 →
    ∃ (t : State) (es : List Event), exec (.fillRect m x y w h color) s = .next t ∧ t.trace = s.trace ++ es ∧
      (Panel.view s.cfg.val p es).beyond = p.beyond ∧
      (Panel.view s.cfg.val p es).pixels = p.pixels ++ (List.range h').flatMap fun r =>
        (List.range w').map fun c =>
          (s.cfg.val.xStart.toNat + x.toNat + c, s.cfg.val.yStart.toNat + y.toNat + r, color)

/-- `ScriptLen` is the number of bytes the interpreter consumes of a well-formed script; what follows is not read
(30 R120, R123, R124). -/
def Obligations.ScriptLenConsumed : Prop :=
  (∀ (sc after : List Byte) (es : List ScriptEntry), parseScript sc = some (es, after) →
    sc.length = scriptLen sc + after.length) ∧
  (∀ (sc after : List Byte) (es : List ScriptEntry), parseScript sc = some (es, []) →
    scriptEntries (sc ++ after) = es)

/-! ## Equivalences -/

/-- Byte mode and burst mode give the same wire trace and leave the same state but for `DONE`, the DMA engine and the
sequencer's position, for every request and every behaviour of the bus (40 R149). -/
def Obligations.ModesEquivalent : Prop :=
  ∀ (i : Instr) (s : State), s.Latched →
    ∃ t u : State, exec (withMode .byte i) s = .next t ∧ exec (withMode .burst i) s = .next u ∧
      t.trace = u.trace ∧ u = { t with done := u.done, dma := u.dma, todo := u.todo }

/-- FILL_RECT and FILL_RECT_FAST, FILL_SCREEN and FILL_SCREEN_FAST: the same wire trace and the same state but for `LINEBUF`,
`DONE`, the DMA engine and the sequencer's position, for every behaviour of the bus (43 R196). -/
def Obligations.FillVariantsEquivalent : Prop :=
  ∀ (m : Mode) (x y w h color : Half) (s : State), s.Latched → s.lineBuf.length = 2 * s.cfg.val.panelW →
    (∃ t u : State, exec (.fillRect m x y w h color) s = .next t ∧ exec (.fillRectFast m x y w h color) s = .next u ∧
      t.trace = u.trace ∧ u = { t with lineBuf := u.lineBuf, done := u.done, dma := u.dma, todo := u.todo }) ∧
    (∃ t u : State, exec (.fillScreen m color) s = .next t ∧ exec (.fillScreenFast m color) s = .next u ∧
      t.trace = u.trace ∧ u = { t with lineBuf := u.lineBuf, done := u.done, dma := u.dma, todo := u.todo })

/-- The atomic steps, taken one turn at a time with nobody between them, end where `exec` ends (00 R12; 30 R114). -/
def Obligations.AtomicStepsReachExec : Prop :=
  ∀ (i : Instr) (s : State), s.Latched → decode s.lreq = .ok i → s.sched = [] →
    ∃ n : Nat, ∀ k, n ≤ k → Host.Core.run core k { s with sched := List.replicate k .block } = exec i s

/-- Every request ends, completed or faulted, when the bus completes each frame it is offered; and whatever the bus does,
the run of a request stops only where the block has no further step (70 R296, R299). When the host has no write left, the
run has ended with it (70 R300). -/
def Obligations.RequestsEnd : Prop :=
  (∀ s : State, s.finish.canStep = false) ∧
  (∀ (i : Instr) (s : State), s.Latched → s.BusLive (s.start (plan i s)).work →
    ∃ t : State, exec i s = .next t ∧ (t.seq = .idle ∨ t.seq = .halted) ∧
      ((∀ op ∈ s.host, op.isWrite = false) → t.Ended))

/-! ## The invariant -/

/-- The invariant holds after power-on of any platform, and so at `State.reset`. -/
def Obligations.ResetMeetsInv : Prop := (∀ p : Platform, (State.powerOn p).Inv) ∧ State.reset.Inv

/-- Every step keeps the invariant, whoever takes it: host memory stays canonical and inside its size, `WINDOW` inside the
panel, the fault record and `HALTED` together, the agents in order, and every step still to come admissible
(10 R36, R40, R42, R51; 20 R72, R75; 42 R183; 60 R260, R267). -/
def Obligations.StepKeepsInv : Prop := ∀ s t : State, s.Inv → step s = .next t → t.Inv

/-- From a state that meets the invariant the block never reads outside host memory (20 R75, R77). -/
def Obligations.NoReadOutsideMemory : Prop :=
  ∀ (s : State) (a : Nat), s.Inv → step s ≠ .fault (.blockReadOutsideMemory a)
end

