-- ==== Sys2Proof/Laws/Encoding.lean ====
section
/-! SUPPORT. The fields of an encoded word are what was put there (30 R100). -/

namespace Sys2Proof

theorem w0Of_op (op : Byte) (m : Mode) (imm : Byte) : (w0Of op m imm).extractLsb' 0 8 = op := by
  unfold w0Of
  ext i hi
  simp only [BitVec.getElem_extractLsb', BitVec.getLsbD_append]
  simp [hi]

theorem w0Of_mode (op : Byte) (m : Mode) (imm : Byte) : (w0Of op m imm).getLsbD 8 = (m == .burst) := by
  unfold w0Of
  simp only [BitVec.getLsbD_append]
  simp

theorem w0Of_imm8 (op : Byte) (m : Mode) (imm : Byte) : (w0Of op m imm).extractLsb' 16 8 = imm := by
  unfold w0Of
  ext i hi
  simp only [BitVec.getElem_extractLsb', BitVec.getLsbD_append]
  have h0 : ¬ (16 + i < 8) := by omega
  have h1 : ¬ (16 + i - 8 < 1) := by omega
  have h2 : ¬ (16 + i - 8 - 1 < 7) := by omega
  have h3 : 16 + i - 8 - 1 - 7 = i := by omega
  simp [h0, h1, h2, h3, hi]

theorem w0Of_reserved_low (op : Byte) (m : Mode) (imm : Byte) : (w0Of op m imm).extractLsb' 9 7 = 0 := by
  unfold w0Of
  ext i hi
  simp only [BitVec.getElem_extractLsb', BitVec.getLsbD_append]
  have h0 : ¬ (9 + i < 8) := by omega
  have h1 : ¬ (9 + i - 8 < 1) := by omega
  have h2 : 9 + i - 8 - 1 < 7 := by omega
  simp [h0, h1, h2]

theorem w0Of_reserved_high (op : Byte) (m : Mode) (imm : Byte) : (w0Of op m imm).extractLsb' 24 8 = 0 := by
  unfold w0Of
  ext i hi
  simp only [BitVec.getElem_extractLsb', BitVec.getLsbD_append]
  have h0 : ¬ (24 + i < 8) := by omega
  have h1 : ¬ (24 + i - 8 < 1) := by omega
  have h2 : ¬ (24 + i - 8 - 1 < 7) := by omega
  have h3 : ¬ (24 + i - 8 - 1 - 7 < 8) := by omega
  simp [h0, h1, h2, h3]

@[simp] theorem loHalf_pair (lo hi : Half) : loHalf (pair lo hi) = lo := by
  unfold loHalf pair
  ext i h
  simp only [BitVec.getElem_extractLsb', BitVec.getLsbD_append]
  simp [h]

@[simp] theorem hiHalf_pair (lo hi : Half) : hiHalf (pair lo hi) = hi := by
  unfold hiHalf pair
  ext i h
  simp only [BitVec.getElem_extractLsb', BitVec.getLsbD_append]
  simp [h]

end Sys2Proof
end

