-- ==== Sys2Proof/Laws/Memory.lean ====
section
/-! SUPPORT. Host memory: a read after a write, and that writing keeps the canonical form (20 R75, R76). -/

namespace Sys2Proof.Machine

@[simp] theorem Mem.read_nil (a : Nat) : Mem.read [] a = Mem.blank := rfl

theorem Mem.read_cons (x : Nat) (v : Byte) (m : List Host.Cell) (a : Nat) :
    Mem.read ((x, v) :: m) a = if a = x then v else Mem.read m a := rfl

/-- Below the bound of a canonical memory nothing is listed. -/
theorem Mem.read_below {m : List Host.Cell} {b a : Nat} (h : Mem.wfFrom b m = true) (ha : a < b) :
    Mem.read m a = Mem.blank := by
  induction m generalizing b with
  | nil => rfl
  | cons c m ih =>
    obtain ⟨x, v⟩ := c
    simp only [Mem.wfFrom, Bool.and_eq_true, decide_eq_true_eq] at h
    rw [Mem.read_cons, if_neg (by omega)]
    exact ih h.2 (by omega)

theorem Mem.wfFrom_mono {m : List Host.Cell} {b b' : Nat} (h : Mem.wfFrom b m = true) (hb : b' ≤ b) :
    Mem.wfFrom b' m = true := by
  cases m with
  | nil => rfl
  | cons c m =>
    obtain ⟨x, v⟩ := c
    simp only [Mem.wfFrom, Bool.and_eq_true, decide_eq_true_eq] at h ⊢
    exact ⟨⟨by omega, h.1.2⟩, h.2⟩

theorem Mem.wfFrom_write {m : List Host.Cell} {b a : Nat} (v : Byte) (h : Mem.wfFrom b m = true) (ha : b ≤ a) :
    Mem.wfFrom b (Mem.write m a v) = true := by
  induction m generalizing b with
  | nil => by_cases hv : v = Mem.blank <;> simp [Mem.write, Mem.wfFrom, hv, ha]
  | cons c m ih =>
    obtain ⟨x, w⟩ := c
    have h' := h
    simp only [Mem.wfFrom, Bool.and_eq_true, decide_eq_true_eq] at h
    unfold Mem.write
    split
    · split
      · exact h'
      · rename_i hlt hv
        simp only [Mem.wfFrom, Bool.and_eq_true, decide_eq_true_eq, bne_iff_ne, ne_eq]
        exact ⟨⟨ha, hv⟩, ⟨by omega, by simpa using h.1.2⟩, h.2⟩
    · split
      · rename_i hax
        split
        · exact Mem.wfFrom_mono h.2 (by omega)
        · rename_i hv
          simp only [Mem.wfFrom, Bool.and_eq_true, decide_eq_true_eq, bne_iff_ne, ne_eq]
          exact ⟨⟨ha, hv⟩, hax ▸ h.2⟩
      · simp only [Mem.wfFrom, Bool.and_eq_true, decide_eq_true_eq]
        exact ⟨h.1, ih h.2 (by omega)⟩

/-- A write keeps the canonical form. -/
theorem Mem.wf_write {m : List Host.Cell} (a : Nat) (v : Byte) (h : Mem.wf m = true) : Mem.wf (Mem.write m a v) = true :=
  Mem.wfFrom_write v h (Nat.zero_le a)

/-- So does a write of several bytes. -/
theorem Mem.wf_writeBytes {m : List Host.Cell} (a : Nat) (bs : List Byte) (h : Mem.wf m = true) :
    Mem.wf (Mem.writeBytes m a bs) = true := by
  induction bs generalizing m a with
  | nil => exact h
  | cons b bs ih => exact ih (a + 1) (Mem.wf_write a b h)

theorem Mem.read_write_from {m : List Host.Cell} {b a : Nat} (v : Byte) (x : Nat) (h : Mem.wfFrom b m = true) (ha : b ≤ a) :
    Mem.read (Mem.write m a v) x = if x = a then v else Mem.read m x := by
  induction m generalizing b with
  | nil =>
    unfold Mem.write
    split <;> by_cases hx : x = a <;> simp_all [Mem.read_cons]
  | cons c m ih =>
    obtain ⟨y, w⟩ := c
    have h' := h
    simp only [Mem.wfFrom, Bool.and_eq_true, decide_eq_true_eq] at h
    unfold Mem.write
    split
    · rename_i hay
      split
      · rename_i hv
        by_cases hx : x = a
        · subst hx
          rw [if_pos rfl, hv, Mem.read_cons, if_neg (by omega)]
          exact Mem.read_below h.2 (by omega)
        · rw [if_neg hx]
      · rw [Mem.read_cons]
    · split
      · rename_i hay
        subst hay
        split
        · rename_i hv
          by_cases hx : x = a
          · subst hx
            rw [if_pos rfl, hv]
            exact Mem.read_below h.2 (by omega)
          · rw [if_neg hx, Mem.read_cons, if_neg hx]
        · by_cases hx : x = a <;> simp [Mem.read_cons, hx]
      · rw [Mem.read_cons, Mem.read_cons, ih h.2 (by omega)]
        by_cases hx : x = y
        · have : x ≠ a := by omega
          simp [hx, show ¬ y = a by omega]
        · simp [hx]

/-- A read after a write: the byte written, and every other byte as before. -/
theorem Mem.read_write {m : List Host.Cell} (h : Mem.wf m = true) (a : Nat) (v : Byte) (x : Nat) :
    Mem.read (Mem.write m a v) x = if x = a then v else Mem.read m x :=
  Mem.read_write_from v x h (Nat.zero_le a)

/-- What a write leaves listed was listed before, or is the address written. -/
theorem Mem.mem_write {m : List Host.Cell} {a : Nat} {v : Byte} {c : Host.Cell} (h : c ∈ Mem.write m a v) :
    c.1 = a ∨ c ∈ m := by
  induction m with
  | nil =>
    unfold Mem.write at h
    split at h <;> simp_all
  | cons d m ih =>
    obtain ⟨x, w⟩ := d
    unfold Mem.write at h
    split at h
    · split at h <;> simp_all
      rcases h with rfl | h <;> simp_all
    · split at h
      · split at h <;> simp_all
        rcases h with rfl | h <;> simp_all
      · rcases List.mem_cons.1 h with rfl | h
        · simp
        · rcases ih h with h | h <;> simp [h]

end Sys2Proof.Machine
end

