-- ==== Sys2Proof/Laws/State.lean ====
section
/-! SUPPORT. One lemma per field per update of the state, each true by unfolding, for `simp`. -/

namespace Sys2Proof.Machine

variable (s : State)

/-! `State.emit` -/

@[simp] theorem emit_cfg (e : Event) : (s.emit e).cfg = s.cfg := rfl
@[simp] theorem emit_req (e : Event) : (s.emit e).req = s.req := rfl
@[simp] theorem emit_result (e : Event) : (s.emit e).result = s.result := rfl
@[simp] theorem emit_lreq (e : Event) : (s.emit e).lreq = s.lreq := rfl
@[simp] theorem emit_seq (e : Event) : (s.emit e).seq = s.seq := rfl
@[simp] theorem emit_pstate (e : Event) : (s.emit e).pstate = s.pstate := rfl
@[simp] theorem emit_window (e : Event) : (s.emit e).window = s.window := rfl
@[simp] theorem emit_cs (e : Event) : (s.emit e).cs = s.cs := rfl
@[simp] theorem emit_dc (e : Event) : (s.emit e).dc = s.dc := rfl
@[simp] theorem emit_rst (e : Event) : (s.emit e).rst = s.rst := rfl
@[simp] theorem emit_done (e : Event) : (s.emit e).done = s.done := rfl
@[simp] theorem emit_faultCode (e : Event) : (s.emit e).faultCode = s.faultCode := rfl
@[simp] theorem emit_faultOp (e : Event) : (s.emit e).faultOp = s.faultOp := rfl
@[simp] theorem emit_dma (e : Event) : (s.emit e).dma = s.dma := rfl
@[simp] theorem emit_lineBuf (e : Event) : (s.emit e).lineBuf = s.lineBuf := rfl
@[simp] theorem emit_timer (e : Event) : (s.emit e).timer = s.timer := rfl
@[simp] theorem emit_todo (e : Event) : (s.emit e).todo = s.todo := rfl
@[simp] theorem emit_mem (e : Event) : (s.emit e).mem = s.mem := rfl
@[simp] theorem emit_trace (e : Event) : (s.emit e).trace = s.trace ++ [e] := rfl
@[simp] theorem emit_seen (e : Event) : (s.emit e).seen = s.seen := rfl
@[simp] theorem emit_host (e : Event) : (s.emit e).host = s.host := rfl
@[simp] theorem emit_sched (e : Event) : (s.emit e).sched = s.sched := rfl
@[simp] theorem emit_bus (e : Event) : (s.emit e).bus = s.bus := rfl
@[simp] theorem emit_draws (e : Event) : (s.emit e).draws = s.draws := rfl
@[simp] theorem emit_hung (e : Event) : (s.emit e).hung = s.hung := rfl

/-! `State.setCS` -/

@[simp] theorem setCS_cfg (l : Bool) : (s.setCS l).cfg = s.cfg := rfl
@[simp] theorem setCS_req (l : Bool) : (s.setCS l).req = s.req := rfl
@[simp] theorem setCS_result (l : Bool) : (s.setCS l).result = s.result := rfl
@[simp] theorem setCS_lreq (l : Bool) : (s.setCS l).lreq = s.lreq := rfl
@[simp] theorem setCS_seq (l : Bool) : (s.setCS l).seq = s.seq := rfl
@[simp] theorem setCS_pstate (l : Bool) : (s.setCS l).pstate = s.pstate := rfl
@[simp] theorem setCS_window (l : Bool) : (s.setCS l).window = s.window := rfl
@[simp] theorem setCS_cs (l : Bool) : (s.setCS l).cs = l := rfl
@[simp] theorem setCS_dc (l : Bool) : (s.setCS l).dc = s.dc := rfl
@[simp] theorem setCS_rst (l : Bool) : (s.setCS l).rst = s.rst := rfl
@[simp] theorem setCS_done (l : Bool) : (s.setCS l).done = s.done := rfl
@[simp] theorem setCS_faultCode (l : Bool) : (s.setCS l).faultCode = s.faultCode := rfl
@[simp] theorem setCS_faultOp (l : Bool) : (s.setCS l).faultOp = s.faultOp := rfl
@[simp] theorem setCS_dma (l : Bool) : (s.setCS l).dma = s.dma := rfl
@[simp] theorem setCS_lineBuf (l : Bool) : (s.setCS l).lineBuf = s.lineBuf := rfl
@[simp] theorem setCS_timer (l : Bool) : (s.setCS l).timer = s.timer := rfl
@[simp] theorem setCS_todo (l : Bool) : (s.setCS l).todo = s.todo := rfl
@[simp] theorem setCS_mem (l : Bool) : (s.setCS l).mem = s.mem := rfl
@[simp] theorem setCS_trace (l : Bool) : (s.setCS l).trace = if s.cs = l then s.trace else s.trace ++ [if l then .csHigh else .csLow] := rfl
@[simp] theorem setCS_seen (l : Bool) : (s.setCS l).seen = s.seen := rfl
@[simp] theorem setCS_host (l : Bool) : (s.setCS l).host = s.host := rfl
@[simp] theorem setCS_sched (l : Bool) : (s.setCS l).sched = s.sched := rfl
@[simp] theorem setCS_bus (l : Bool) : (s.setCS l).bus = s.bus := rfl
@[simp] theorem setCS_draws (l : Bool) : (s.setCS l).draws = s.draws := rfl
@[simp] theorem setCS_hung (l : Bool) : (s.setCS l).hung = s.hung := rfl

/-! `State.setDC` -/

@[simp] theorem setDC_cfg (l : Bool) : (s.setDC l).cfg = s.cfg := rfl
@[simp] theorem setDC_req (l : Bool) : (s.setDC l).req = s.req := rfl
@[simp] theorem setDC_result (l : Bool) : (s.setDC l).result = s.result := rfl
@[simp] theorem setDC_lreq (l : Bool) : (s.setDC l).lreq = s.lreq := rfl
@[simp] theorem setDC_seq (l : Bool) : (s.setDC l).seq = s.seq := rfl
@[simp] theorem setDC_pstate (l : Bool) : (s.setDC l).pstate = s.pstate := rfl
@[simp] theorem setDC_window (l : Bool) : (s.setDC l).window = s.window := rfl
@[simp] theorem setDC_cs (l : Bool) : (s.setDC l).cs = s.cs := rfl
@[simp] theorem setDC_dc (l : Bool) : (s.setDC l).dc = l := rfl
@[simp] theorem setDC_rst (l : Bool) : (s.setDC l).rst = s.rst := rfl
@[simp] theorem setDC_done (l : Bool) : (s.setDC l).done = s.done := rfl
@[simp] theorem setDC_faultCode (l : Bool) : (s.setDC l).faultCode = s.faultCode := rfl
@[simp] theorem setDC_faultOp (l : Bool) : (s.setDC l).faultOp = s.faultOp := rfl
@[simp] theorem setDC_dma (l : Bool) : (s.setDC l).dma = s.dma := rfl
@[simp] theorem setDC_lineBuf (l : Bool) : (s.setDC l).lineBuf = s.lineBuf := rfl
@[simp] theorem setDC_timer (l : Bool) : (s.setDC l).timer = s.timer := rfl
@[simp] theorem setDC_todo (l : Bool) : (s.setDC l).todo = s.todo := rfl
@[simp] theorem setDC_mem (l : Bool) : (s.setDC l).mem = s.mem := rfl
@[simp] theorem setDC_trace (l : Bool) : (s.setDC l).trace = s.trace := rfl
@[simp] theorem setDC_seen (l : Bool) : (s.setDC l).seen = s.seen := rfl
@[simp] theorem setDC_host (l : Bool) : (s.setDC l).host = s.host := rfl
@[simp] theorem setDC_sched (l : Bool) : (s.setDC l).sched = s.sched := rfl
@[simp] theorem setDC_bus (l : Bool) : (s.setDC l).bus = s.bus := rfl
@[simp] theorem setDC_draws (l : Bool) : (s.setDC l).draws = s.draws := rfl
@[simp] theorem setDC_hung (l : Bool) : (s.setDC l).hung = s.hung := rfl

/-! `State.setRST` -/

@[simp] theorem setRST_cfg (l : Bool) : (s.setRST l).cfg = s.cfg := rfl
@[simp] theorem setRST_req (l : Bool) : (s.setRST l).req = s.req := rfl
@[simp] theorem setRST_result (l : Bool) : (s.setRST l).result = s.result := rfl
@[simp] theorem setRST_lreq (l : Bool) : (s.setRST l).lreq = s.lreq := rfl
@[simp] theorem setRST_seq (l : Bool) : (s.setRST l).seq = s.seq := rfl
@[simp] theorem setRST_pstate (l : Bool) : (s.setRST l).pstate = s.pstate := rfl
@[simp] theorem setRST_window (l : Bool) : (s.setRST l).window = s.window := rfl
@[simp] theorem setRST_cs (l : Bool) : (s.setRST l).cs = s.cs := rfl
@[simp] theorem setRST_dc (l : Bool) : (s.setRST l).dc = s.dc := rfl
@[simp] theorem setRST_rst (l : Bool) : (s.setRST l).rst = l := rfl
@[simp] theorem setRST_done (l : Bool) : (s.setRST l).done = s.done := rfl
@[simp] theorem setRST_faultCode (l : Bool) : (s.setRST l).faultCode = s.faultCode := rfl
@[simp] theorem setRST_faultOp (l : Bool) : (s.setRST l).faultOp = s.faultOp := rfl
@[simp] theorem setRST_dma (l : Bool) : (s.setRST l).dma = s.dma := rfl
@[simp] theorem setRST_lineBuf (l : Bool) : (s.setRST l).lineBuf = s.lineBuf := rfl
@[simp] theorem setRST_timer (l : Bool) : (s.setRST l).timer = s.timer := rfl
@[simp] theorem setRST_todo (l : Bool) : (s.setRST l).todo = s.todo := rfl
@[simp] theorem setRST_mem (l : Bool) : (s.setRST l).mem = s.mem := rfl
@[simp] theorem setRST_trace (l : Bool) : (s.setRST l).trace = if s.rst = l then s.trace else s.trace ++ [if l then .rstHigh else .rstLow] := rfl
@[simp] theorem setRST_seen (l : Bool) : (s.setRST l).seen = s.seen := rfl
@[simp] theorem setRST_host (l : Bool) : (s.setRST l).host = s.host := rfl
@[simp] theorem setRST_sched (l : Bool) : (s.setRST l).sched = s.sched := rfl
@[simp] theorem setRST_bus (l : Bool) : (s.setRST l).bus = s.bus := rfl
@[simp] theorem setRST_draws (l : Bool) : (s.setRST l).draws = s.draws := rfl
@[simp] theorem setRST_hung (l : Bool) : (s.setRST l).hung = s.hung := rfl

/-! `State.popFrame` -/

@[simp] theorem popFrame_cfg : (s.popFrame).cfg = s.cfg := rfl
@[simp] theorem popFrame_req : (s.popFrame).req = s.req := rfl
@[simp] theorem popFrame_result : (s.popFrame).result = s.result := rfl
@[simp] theorem popFrame_lreq : (s.popFrame).lreq = s.lreq := rfl
@[simp] theorem popFrame_seq : (s.popFrame).seq = s.seq := rfl
@[simp] theorem popFrame_pstate : (s.popFrame).pstate = s.pstate := rfl
@[simp] theorem popFrame_window : (s.popFrame).window = s.window := rfl
@[simp] theorem popFrame_cs : (s.popFrame).cs = s.cs := rfl
@[simp] theorem popFrame_dc : (s.popFrame).dc = s.dc := rfl
@[simp] theorem popFrame_rst : (s.popFrame).rst = s.rst := rfl
@[simp] theorem popFrame_done : (s.popFrame).done = s.done := rfl
@[simp] theorem popFrame_faultCode : (s.popFrame).faultCode = s.faultCode := rfl
@[simp] theorem popFrame_faultOp : (s.popFrame).faultOp = s.faultOp := rfl
@[simp] theorem popFrame_dma : (s.popFrame).dma = s.dma := rfl
@[simp] theorem popFrame_lineBuf : (s.popFrame).lineBuf = s.lineBuf := rfl
@[simp] theorem popFrame_timer : (s.popFrame).timer = s.timer := rfl
@[simp] theorem popFrame_todo : (s.popFrame).todo = s.todo := rfl
@[simp] theorem popFrame_mem : (s.popFrame).mem = s.mem := rfl
@[simp] theorem popFrame_trace : (s.popFrame).trace = s.trace := rfl
@[simp] theorem popFrame_seen : (s.popFrame).seen = s.seen := rfl
@[simp] theorem popFrame_host : (s.popFrame).host = s.host := rfl
@[simp] theorem popFrame_sched : (s.popFrame).sched = s.sched := rfl
@[simp] theorem popFrame_bus : (s.popFrame).bus = s.bus.tail := rfl
@[simp] theorem popFrame_draws : (s.popFrame).draws = s.draws + 1 := rfl
@[simp] theorem popFrame_hung : (s.popFrame).hung = s.hung := rfl

/-! `State.raise` -/

@[simp] theorem raise_cfg (c : FaultCause) : (s.raise c).cfg = s.cfg := rfl
@[simp] theorem raise_req (c : FaultCause) : (s.raise c).req = s.req := rfl
@[simp] theorem raise_result (c : FaultCause) : (s.raise c).result = s.result := rfl
@[simp] theorem raise_lreq (c : FaultCause) : (s.raise c).lreq = s.lreq := rfl
@[simp] theorem raise_seq (c : FaultCause) : (s.raise c).seq = .halted := rfl
@[simp] theorem raise_pstate (c : FaultCause) : (s.raise c).pstate = s.pstate := rfl
@[simp] theorem raise_window (c : FaultCause) : (s.raise c).window = s.window := rfl
@[simp] theorem raise_cs (c : FaultCause) : (s.raise c).cs = true := rfl
@[simp] theorem raise_dc (c : FaultCause) : (s.raise c).dc = s.dc := rfl
@[simp] theorem raise_rst (c : FaultCause) : (s.raise c).rst = s.rst := rfl
@[simp] theorem raise_done (c : FaultCause) : (s.raise c).done = s.done := rfl
@[simp] theorem raise_faultCode (c : FaultCause) : (s.raise c).faultCode = c.code := rfl
@[simp] theorem raise_faultOp (c : FaultCause) : (s.raise c).faultOp = s.lreq.op := rfl
@[simp] theorem raise_dma (c : FaultCause) : (s.raise c).dma = .idle := rfl
@[simp] theorem raise_lineBuf (c : FaultCause) : (s.raise c).lineBuf = s.lineBuf := rfl
@[simp] theorem raise_timer (c : FaultCause) : (s.raise c).timer = s.timer := rfl
@[simp] theorem raise_todo (c : FaultCause) : (s.raise c).todo = none := rfl
@[simp] theorem raise_mem (c : FaultCause) : (s.raise c).mem = s.mem := rfl
@[simp] theorem raise_trace (c : FaultCause) : (s.raise c).trace = if s.cs = true then s.trace else s.trace ++ [.csHigh] := rfl
@[simp] theorem raise_seen (c : FaultCause) : (s.raise c).seen = s.seen := rfl
@[simp] theorem raise_host (c : FaultCause) : (s.raise c).host = s.host := rfl
@[simp] theorem raise_sched (c : FaultCause) : (s.raise c).sched = s.sched := rfl
@[simp] theorem raise_bus (c : FaultCause) : (s.raise c).bus = s.bus := rfl
@[simp] theorem raise_draws (c : FaultCause) : (s.raise c).draws = s.draws := rfl
@[simp] theorem raise_hung (c : FaultCause) : (s.raise c).hung = false := rfl

/-! `State.resetBlock` -/

@[simp] theorem resetBlock_cfg : (s.resetBlock).cfg = s.cfg := rfl
@[simp] theorem resetBlock_req : (s.resetBlock).req = Desc.zero := rfl
@[simp] theorem resetBlock_result : (s.resetBlock).result = 0 := rfl
@[simp] theorem resetBlock_lreq : (s.resetBlock).lreq = Desc.zero := rfl
@[simp] theorem resetBlock_seq : (s.resetBlock).seq = .idle := rfl
@[simp] theorem resetBlock_pstate : (s.resetBlock).pstate = .uninitialized := rfl
@[simp] theorem resetBlock_window : (s.resetBlock).window = ⟨0, 0, 0, 0⟩ := rfl
@[simp] theorem resetBlock_cs : (s.resetBlock).cs = true := rfl
@[simp] theorem resetBlock_dc : (s.resetBlock).dc = false := rfl
@[simp] theorem resetBlock_rst : (s.resetBlock).rst = true := rfl
@[simp] theorem resetBlock_done : (s.resetBlock).done = false := rfl
@[simp] theorem resetBlock_faultCode : (s.resetBlock).faultCode = 0 := rfl
@[simp] theorem resetBlock_faultOp : (s.resetBlock).faultOp = 0 := rfl
@[simp] theorem resetBlock_dma : (s.resetBlock).dma = .idle := rfl
@[simp] theorem resetBlock_lineBuf : (s.resetBlock).lineBuf = freshLineBuf s.cfg := rfl
@[simp] theorem resetBlock_timer : (s.resetBlock).timer = .idle := rfl
@[simp] theorem resetBlock_todo : (s.resetBlock).todo = none := rfl
@[simp] theorem resetBlock_mem : (s.resetBlock).mem = s.mem := rfl
@[simp] theorem resetBlock_trace : (s.resetBlock).trace = if s.rst = true then (if s.cs = true then s.trace else s.trace ++ [.csHigh]) else (if s.cs = true then s.trace else s.trace ++ [.csHigh]) ++ [.rstHigh] := rfl
@[simp] theorem resetBlock_seen : (s.resetBlock).seen = s.seen := rfl
@[simp] theorem resetBlock_host : (s.resetBlock).host = s.host := rfl
@[simp] theorem resetBlock_sched : (s.resetBlock).sched = s.sched := rfl
@[simp] theorem resetBlock_bus : (s.resetBlock).bus = s.bus := rfl
@[simp] theorem resetBlock_draws : (s.resetBlock).draws = s.draws := rfl
@[simp] theorem resetBlock_hung : (s.resetBlock).hung = false := rfl

/-! `State.complete` -/

@[simp] theorem complete_cfg : (s.complete).cfg = s.cfg := rfl
@[simp] theorem complete_req : (s.complete).req = s.req := rfl
@[simp] theorem complete_result : (s.complete).result = s.result := rfl
@[simp] theorem complete_lreq : (s.complete).lreq = s.lreq := rfl
@[simp] theorem complete_seq : (s.complete).seq = .idle := rfl
@[simp] theorem complete_pstate : (s.complete).pstate = s.pstate := rfl
@[simp] theorem complete_window : (s.complete).window = s.window := rfl
@[simp] theorem complete_cs : (s.complete).cs = s.cs := rfl
@[simp] theorem complete_dc : (s.complete).dc = s.dc := rfl
@[simp] theorem complete_rst : (s.complete).rst = s.rst := rfl
@[simp] theorem complete_done : (s.complete).done = s.done := rfl
@[simp] theorem complete_faultCode : (s.complete).faultCode = s.faultCode := rfl
@[simp] theorem complete_faultOp : (s.complete).faultOp = s.faultOp := rfl
@[simp] theorem complete_dma : (s.complete).dma = s.dma := rfl
@[simp] theorem complete_lineBuf : (s.complete).lineBuf = s.lineBuf := rfl
@[simp] theorem complete_timer : (s.complete).timer = s.timer := rfl
@[simp] theorem complete_todo : (s.complete).todo = none := rfl
@[simp] theorem complete_mem : (s.complete).mem = s.mem := rfl
@[simp] theorem complete_trace : (s.complete).trace = s.trace := rfl
@[simp] theorem complete_seen : (s.complete).seen = s.seen := rfl
@[simp] theorem complete_host : (s.complete).host = s.host := rfl
@[simp] theorem complete_sched : (s.complete).sched = s.sched := rfl
@[simp] theorem complete_bus : (s.complete).bus = s.bus := rfl
@[simp] theorem complete_draws : (s.complete).draws = s.draws := rfl
@[simp] theorem complete_hung : (s.complete).hung = s.hung := rfl

/-! `State.doorbell` -/

@[simp] theorem doorbell_cfg (v : Word) : (s.doorbell v).cfg = s.cfg := rfl
@[simp] theorem doorbell_req (v : Word) : (s.doorbell v).req = { s.req with w0 := v } := rfl
@[simp] theorem doorbell_result (v : Word) : (s.doorbell v).result = s.result := rfl
@[simp] theorem doorbell_lreq (v : Word) : (s.doorbell v).lreq = { s.req with w0 := v } := rfl
@[simp] theorem doorbell_seq (v : Word) : (s.doorbell v).seq = .exec := rfl
@[simp] theorem doorbell_pstate (v : Word) : (s.doorbell v).pstate = s.pstate := rfl
@[simp] theorem doorbell_window (v : Word) : (s.doorbell v).window = s.window := rfl
@[simp] theorem doorbell_cs (v : Word) : (s.doorbell v).cs = s.cs := rfl
@[simp] theorem doorbell_dc (v : Word) : (s.doorbell v).dc = s.dc := rfl
@[simp] theorem doorbell_rst (v : Word) : (s.doorbell v).rst = s.rst := rfl
@[simp] theorem doorbell_done (v : Word) : (s.doorbell v).done = s.done := rfl
@[simp] theorem doorbell_faultCode (v : Word) : (s.doorbell v).faultCode = s.faultCode := rfl
@[simp] theorem doorbell_faultOp (v : Word) : (s.doorbell v).faultOp = s.faultOp := rfl
@[simp] theorem doorbell_dma (v : Word) : (s.doorbell v).dma = s.dma := rfl
@[simp] theorem doorbell_lineBuf (v : Word) : (s.doorbell v).lineBuf = s.lineBuf := rfl
@[simp] theorem doorbell_timer (v : Word) : (s.doorbell v).timer = s.timer := rfl
@[simp] theorem doorbell_todo (v : Word) : (s.doorbell v).todo = none := rfl
@[simp] theorem doorbell_mem (v : Word) : (s.doorbell v).mem = s.mem := rfl
@[simp] theorem doorbell_trace (v : Word) : (s.doorbell v).trace = s.trace := rfl
@[simp] theorem doorbell_seen (v : Word) : (s.doorbell v).seen = s.seen := rfl
@[simp] theorem doorbell_host (v : Word) : (s.doorbell v).host = s.host := rfl
@[simp] theorem doorbell_sched (v : Word) : (s.doorbell v).sched = s.sched := rfl
@[simp] theorem doorbell_bus (v : Word) : (s.doorbell v).bus = s.bus := rfl
@[simp] theorem doorbell_draws (v : Word) : (s.doorbell v).draws = s.draws := rfl
@[simp] theorem doorbell_hung (v : Word) : (s.doorbell v).hung = s.hung := rfl

/-! `State.latch` -/

@[simp] theorem latch_cfg (d : Desc) : (s.latch d).cfg = s.cfg := rfl
@[simp] theorem latch_req (d : Desc) : (s.latch d).req = d := rfl
@[simp] theorem latch_result (d : Desc) : (s.latch d).result = s.result := rfl
@[simp] theorem latch_lreq (d : Desc) : (s.latch d).lreq = d := rfl
@[simp] theorem latch_seq (d : Desc) : (s.latch d).seq = .exec := rfl
@[simp] theorem latch_pstate (d : Desc) : (s.latch d).pstate = s.pstate := rfl
@[simp] theorem latch_window (d : Desc) : (s.latch d).window = s.window := rfl
@[simp] theorem latch_cs (d : Desc) : (s.latch d).cs = s.cs := rfl
@[simp] theorem latch_dc (d : Desc) : (s.latch d).dc = s.dc := rfl
@[simp] theorem latch_rst (d : Desc) : (s.latch d).rst = s.rst := rfl
@[simp] theorem latch_done (d : Desc) : (s.latch d).done = s.done := rfl
@[simp] theorem latch_faultCode (d : Desc) : (s.latch d).faultCode = s.faultCode := rfl
@[simp] theorem latch_faultOp (d : Desc) : (s.latch d).faultOp = s.faultOp := rfl
@[simp] theorem latch_dma (d : Desc) : (s.latch d).dma = .idle := rfl
@[simp] theorem latch_lineBuf (d : Desc) : (s.latch d).lineBuf = s.lineBuf := rfl
@[simp] theorem latch_timer (d : Desc) : (s.latch d).timer = .idle := rfl
@[simp] theorem latch_todo (d : Desc) : (s.latch d).todo = none := rfl
@[simp] theorem latch_mem (d : Desc) : (s.latch d).mem = s.mem := rfl
@[simp] theorem latch_trace (d : Desc) : (s.latch d).trace = s.trace := rfl
@[simp] theorem latch_seen (d : Desc) : (s.latch d).seen = s.seen := rfl
@[simp] theorem latch_host (d : Desc) : (s.latch d).host = s.host := rfl
@[simp] theorem latch_sched (d : Desc) : (s.latch d).sched = [] := rfl
@[simp] theorem latch_bus (d : Desc) : (s.latch d).bus = s.bus := rfl
@[simp] theorem latch_draws (d : Desc) : (s.latch d).draws = s.draws := rfl
@[simp] theorem latch_hung (d : Desc) : (s.latch d).hung = false := rfl

end Sys2Proof.Machine
end

