-- ==== Sys2Proof/Laws/Ops.lean ====
section
/-! SUPPORT. What each shared operation can do: frames on the bus, plans, host accesses. -/

namespace Sys2Proof.Machine

variable (s : State)

/-- Offering a frame moves on to the next outcome. -/
theorem frame_popFrame (k : Nat) : s.popFrame.frame k = s.frame (k + 1) := by
  unfold State.frame
  cases h : s.bus with
  | nil => simp [h, Nat.add_comm, Nat.add_left_comm]
  | cons o r => simp [h, Nat.add_comm, Nat.add_left_comm]

/-- A frame that completes: its event, then what its agent does next (40 R141). -/
theorem tx_ok (b : Byte) (f : State → State) (h : s.frame 0 = .ok) :
    s.tx b f = f (s.popFrame.emit (.byte s.cs s.dc b)) := by simp [State.tx, h]

/-- A frame that ends in an error takes `TRANSPORT` and emits no event of its own (40 R141). -/
theorem tx_err (b : Byte) (f : State → State) (h : s.frame 0 = .err) : s.tx b f = s.popFrame.raise .transport := by
  simp [State.tx, h]

/-- A frame that never completes leaves the block hung (60 R271). -/
theorem tx_never (b : Byte) (f : State → State) (h : s.frame 0 = .never) :
    s.tx b f = { s.popFrame with hung := true } := by simp [State.tx, h]

/-- Everything one frame can do. -/
theorem tx_cases (b : Byte) (f : State → State) :
    (s.frame 0 = .ok ∧ s.tx b f = f (s.popFrame.emit (.byte s.cs s.dc b))) ∨
      (s.frame 0 = .err ∧ s.tx b f = s.popFrame.raise .transport) ∨
      (s.frame 0 = .never ∧ s.tx b f = { s.popFrame with hung := true }) := by
  cases h : s.frame 0 with
  | ok => exact .inl ⟨rfl, tx_ok s b f h⟩
  | err => exact .inr (.inl ⟨rfl, tx_err s b f h⟩)
  | never => exact .inr (.inr ⟨rfl, tx_never s b f h⟩)

/-- A panel request's plan in the Ready state is its own. -/
@[simp] theorem whenReady_ready (p : Plan) (h : s.pstate = .ready) : s.whenReady p = p := by simp [State.whenReady, h]

/-- In any other state it is `NOT_READY` (60 R253). -/
@[simp] theorem whenReady_notReady (p : Plan) (h : s.pstate ≠ .ready) : s.whenReady p = .error .notReady := by
  simp [State.whenReady, h]

/-- A request answers a next state, always. -/
theorem request_eq (p : Plan) : s.request p = .next (s.start p).finish := rfl

/-- Which accesses to the register window have a meaning (20 R71). -/
theorem windowOffset_ok {c : Config} {addr : Word} {width off : Nat} (h : windowOffset c addr width = .ok off) :
    off = (addr - c.blockBase).toNat ∧ off < 0x40 ∧ width = 32 ∧ off % 4 = 0 := by
  unfold windowOffset at h
  dsimp only at h
  split at h
  · cases h
  · split at h
    · rename_i h40 hw
      cases h
      exact ⟨rfl, by omega, hw.1, hw.2⟩
    · cases h

/-- Everything a register write can do: nothing, a word of `REQ`, a doorbell, or a reset. -/
theorem writeReg_cases (off : Nat) (v : Word) :
    s.writeReg off v = s ∨ (s.seq = .idle ∧ s.writeReg off v = s.doorbell v) ∨
      (s.seq = .idle ∧ ∃ d, s.writeReg off v = { s with req := d }) ∨ s.writeReg off v = s.resetBlock := by
  unfold State.writeReg
  split
  · split
    · exact .inr (.inr (.inr rfl))
    · exact .inl rfl
  · split
    · exact .inl rfl
    · rename_i hidle
      have hi : s.seq = .idle := by simpa using hidle
      split
      · exact .inr (.inl ⟨hi, rfl⟩)
      · split
        · exact .inr (.inr (.inl ⟨hi, _, rfl⟩))
        · split
          · exact .inr (.inr (.inl ⟨hi, _, rfl⟩))
          · split
            · exact .inr (.inr (.inl ⟨hi, _, rfl⟩))
            · exact .inl rfl

/-! The events before a frame that failed. -/

@[simp] theorem beforeFrame_nil (k : Nat) : beforeFrame k [] = [] := by cases k <;> rfl

@[simp] theorem beforeFrame_byte_zero (cs dc : Bool) (b : Byte) (es : List Event) :
    beforeFrame 0 (.byte cs dc b :: es) = [] := rfl

@[simp] theorem beforeFrame_byte_succ (k : Nat) (cs dc : Bool) (b : Byte) (es : List Event) :
    beforeFrame (k + 1) (.byte cs dc b :: es) = .byte cs dc b :: beforeFrame k es := rfl

/-- Of data bytes the first `k` come before frame `k`. -/
@[simp] theorem beforeFrame_dataEvents (cs : Bool) (l : List Byte) (k : Nat) :
    beforeFrame k (dataEvents cs l) = dataEvents cs (l.take k) := by
  induction l generalizing k with
  | nil => simp [dataEvents]
  | cons b l ih => cases k <;> simp_all [dataEvents]

theorem frameLevels_append (es fs : List Event) : frameLevels (es ++ fs) = frameLevels es ++ frameLevels fs := by
  simp [frameLevels]

/-- The row of a code that `GLYPH` gives (00 R7). -/
theorem glyph_given {f : Font} {c : Nat} (i : Nat) (h : c ≠ 0) : glyph f c i = (f.rows.lookup (c, i)).getD 0 := by
  simp [glyph, h]

/-- A range whose end lies below its start places no pixel (20 R92, R93). -/
theorem panel_pixel_inverted {p : Panel} {xs xe ys ye : Nat} (v : Half) (hc : p.cols = some (xs, xe))
    (hr : p.rows = some (ys, ye)) (h : xe < xs ∨ ye < ys) :
    (p.pixel v).pixels = p.pixels ∧ (p.pixel v).beyond = p.beyond ++ [v] := by
  have h0 : xe + 1 - xs = 0 ∨ ye + 1 - ys = 0 := by omega
  rcases h0 with h0 | h0 <;> simp [Panel.pixel, hc, hr, h0]

end Sys2Proof.Machine
end

