-- ==== Sys2Proof/Laws/Engine.lean ====
section
/-! SUPPORT. What a step of the block can do, and how steps make runs. -/

namespace Sys2Proof.Machine

variable (s : State)

/-- `exec` runs the request's plan, whichever request it is. -/
theorem exec_eq_request (i : Instr) : exec i s = s.request (plan i s) := by cases i <;> rfl

/-- A plan that raises a fault: fault entry, and nothing else (60 R258). -/
theorem request_error (c : FaultCause) : s.request (.error c) = .next (s.raise c) := by
  have h : (s.raise c).canStep = false := by simp [State.canStep]
  have hrun : ∀ n, State.runBlock n (s.raise c) = s.raise c := by
    intro n
    cases n <;> simp [State.runBlock, h]
  simp [State.request, State.start, State.finish, hrun]

/-- A block with no step stays as it is. -/
@[simp] theorem blockStep_stuck (h : s.canStep = false) : s.blockStep = s := by simp [State.blockStep, h]

@[simp] theorem runBlock_zero : State.runBlock 0 s = s := rfl

@[simp] theorem runBlock_stuck (n : Nat) (h : s.canStep = false) : State.runBlock n s = s := by
  cases n <;> simp [State.runBlock, h]

theorem runBlock_succ (n : Nat) : State.runBlock (n + 1) s = State.runBlock n s.blockStep := by
  cases h : s.canStep <;> simp [State.runBlock, h]

/-- Runs of the block compose. -/
theorem runBlock_add (m n : Nat) : State.runBlock (m + n) s = State.runBlock n (State.runBlock m s) := by
  induction m generalizing s with
  | zero => simp
  | succ m ih => rw [Nat.succ_add, runBlock_succ, runBlock_succ, ih]

/-- More steps change nothing once the block has none. -/
theorem runBlock_mono {m n : Nat} (hmn : m ≤ n) (h : (State.runBlock m s).canStep = false) :
    State.runBlock n s = State.runBlock m s := by
  obtain ⟨k, rfl⟩ := Nat.exists_eq_add_of_le hmn
  rw [runBlock_add, runBlock_stuck _ _ h]

@[simp] theorem canStep_of_not_exec (h : s.seq ≠ .exec) : s.canStep = false := by simp [State.canStep, h]

@[simp] theorem canStep_of_hung (h : s.hung = true) : s.canStep = false := by simp [State.canStep, h]

/-- Everything a step of the block can do: the one agent that has a step takes it (60 R267). -/
theorem blockStep_cases (h : s.canStep = true) :
    (∃ src n i, s.dma = .active src n i ∧ s.blockStep = s.dmaStep src n i) ∨
      (s.dma = .idle ∧ (∃ ms, s.timer = .waiting ms) ∧ s.blockStep = { s with timer := .idle }) ∨
      (s.dma = .idle ∧ s.timer = .idle ∧ s.todo = some [] ∧ s.blockStep = s.complete) ∨
      (s.dma = .idle ∧ s.timer = .idle ∧ ∃ op rest, s.todo = some (op :: rest) ∧ s.blockStep = s.seqStep op rest) := by
  cases hd : s.dma with
  | active src n i => exact .inl ⟨src, n, i, rfl, by simp [State.blockStep, h, hd]⟩
  | idle =>
    cases ht : s.timer with
    | waiting ms => exact .inr (.inl ⟨rfl, ⟨ms, rfl⟩, by simp [State.blockStep, h, hd, ht]⟩)
    | idle =>
      cases hl : s.todo with
      | none => simp [State.canStep, hl] at h
      | some l =>
        cases l with
        | nil => exact .inr (.inr (.inl ⟨rfl, rfl, rfl, by simp [State.blockStep, h, hd, ht, hl]⟩))
        | cons op rest =>
          exact .inr (.inr (.inr ⟨rfl, rfl, op, rest, rfl, by simp [State.blockStep, h, hd, ht, hl]⟩))

/-- A fault ends the request: whatever raised it, the block has no further step (60 R259). -/
@[simp] theorem canStep_raise (c : FaultCause) : (s.raise c).canStep = false := by simp [State.canStep]

@[simp] theorem canStep_complete : s.complete.canStep = false := by simp [State.canStep]

@[simp] theorem canStep_resetBlock : s.resetBlock.canStep = false := by simp [State.canStep]

/-! The machine's step, by who is due (00 R12). -/

theorem step_block (rest : List Turn) (h : s.sched = .block :: rest) :
    step s = blockTurn { s with sched := rest } := by simp [step, turn, h]

theorem step_host (rest : List Turn) (h : s.sched = .host :: rest) : step s = hostTurn { s with sched := rest } := by
  simp [step, turn, h]

theorem step_hwReset (rest : List Turn) (h : s.sched = .hwReset :: rest) :
    step s = .next { s with sched := rest }.resetBlock := by simp [step, turn, h]

theorem step_quiet (h : s.sched = []) : step s = quietTurn s := by simp [step, turn, h]

/-- Everything a turn of the block can do. -/
theorem blockTurn_cases {t : State} (h : blockTurn s = .next t) :
    (s.seq = .exec ∧ s.hung = false ∧ s.todo = none ∧ t = s.begin) ∨
      (s.seq = .exec ∧ s.hung = false ∧ s.todo ≠ none ∧ t = s.blockStep) ∨
      (¬ (s.seq = .exec ∧ s.hung = false) ∧ t = s) := by
  unfold blockTurn at h
  split at h
  · rename_i hrun
    split at h
    · rename_i hb
      cases h
      exact .inl ⟨hrun.1, hrun.2, hb, rfl⟩
    · rename_i hb
      split at h
      · split at h <;> cases h
        exact .inr (.inl ⟨hrun.1, hrun.2, hb, rfl⟩)
      · cases h
        exact .inr (.inl ⟨hrun.1, hrun.2, hb, rfl⟩)
  · rename_i hrun
    cases h
    exact .inr (.inr ⟨hrun, rfl⟩)

/-- Everything a turn of the host can do that answers a next state. -/
theorem hostTurn_cases {t : State} (h : hostTurn s = .next t) :
    t = s ∨ (∃ rest v, t = { s with host := rest, seen := v }) ∨
      (∃ rest off v, ¬ (s.seq = .exec ∧ heldOffset off = true) ∧ t = State.writeReg { s with host := rest } off v) ∨
      (∃ rest a bs, a + bs.length ≤ s.cfg.val.hostMemSize ∧
        t = { s with host := rest, mem := Mem.writeBytes s.mem a bs }) := by
  unfold hostTurn at h
  split at h
  · cases h
    exact .inl rfl
  · rename_i op rest _
    unfold hostAccess at h
    cases op with
    | readReg addr width =>
      simp only at h
      split at h
      · cases h
      · cases h
        exact .inr (.inl ⟨rest, _, rfl⟩)
    | writeReg addr width v =>
      simp only at h
      split at h
      · cases h
      · split at h
        · cases h
          exact .inl rfl
        · rename_i off _ hheld
          cases h
          exact .inr (.inr (.inl ⟨rest, off, v, hheld, rfl⟩))
    | load a =>
      simp only at h
      split at h
      · cases h
        exact .inr (.inl ⟨rest, _, rfl⟩)
      · cases h
    | store a bs =>
      simp only at h
      split at h
      · rename_i hle
        cases h
        exact .inr (.inr (.inr ⟨rest, a, bs, hle, rfl⟩))
      · cases h
    | waitIdle =>
      simp only at h
      split at h
      · cases h
        exact .inr (.inl ⟨s.host, _, rfl⟩)
      · cases h
        exact .inr (.inl ⟨rest, _, rfl⟩)

end Sys2Proof.Machine
end

