-- ==== Sys2Proof/Laws/PerInstr.lean ====
section
/-! SUPPORT. Per-instruction statements: the fields of every request's `W0` (30 R100, R103, R107). -/

namespace Sys2Proof.Laws.Fields

open Sys2Proof.Machine (opOf modeOf)

/-- An encoded request carries its own `OP` and `MODE`, and its reserved bits are 0. -/
def Statement (i : Instr) : Prop :=
  (encode i).op = opOf i ∧ (encode i).mode = modeOf i ∧ (encode i).reservedZero = true

theorem of_w0 {d : Desc} {op : Byte} {m : Mode} {imm : Byte} (h : d.w0 = w0Of op m imm) :
    d.op = op ∧ d.mode = m ∧ d.reservedZero = true := by
  refine ⟨?_, ?_, ?_⟩
  · simp [Desc.op, h, w0Of_op]
  · unfold Desc.mode
    rw [h, w0Of_mode]
    cases m <;> rfl
  · simp [Desc.reservedZero, h, w0Of_reserved_low, w0Of_reserved_high]

theorem select (m : Mode) : Statement (.select m) := of_w0 rfl
theorem unselect (m : Mode) : Statement (.unselect m) := of_w0 rfl
theorem wrcmd (m : Mode) (opc : Byte) : Statement (.wrcmd m opc) := of_w0 rfl
theorem wrdata (m : Mode) (addr len : Word) : Statement (.wrdata m addr len) := of_w0 rfl
theorem setwin (m : Mode) (x0 y0 x1 y1 : Half) : Statement (.setwin m x0 y0 x1 y1) := of_w0 rfl
theorem init (m : Mode) : Statement (.init m) := of_w0 rfl
theorem drawPixel (m : Mode) (x y color : Half) : Statement (.drawPixel m x y color) := of_w0 rfl
theorem fillRect (m : Mode) (x y w h color : Half) : Statement (.fillRect m x y w h color) := of_w0 rfl
theorem fillRectFast (m : Mode) (x y w h color : Half) : Statement (.fillRectFast m x y w h color) := of_w0 rfl
theorem drawImage (m : Mode) (x y w h : Half) (addr : Word) : Statement (.drawImage m x y w h addr) := of_w0 rfl
theorem writeString (m : Mode) (font : Byte) (x y fg bg : Half) (addr : Word) :
    Statement (.writeString m font x y fg bg addr) := of_w0 rfl
theorem fillScreen (m : Mode) (color : Half) : Statement (.fillScreen m color) := of_w0 rfl
theorem fillScreenFast (m : Mode) (color : Half) : Statement (.fillScreenFast m color) := of_w0 rfl
theorem invert (m : Mode) (on : Bool) : Statement (.invert m on) := of_w0 rfl
theorem setGamma (m : Mode) (curve : Byte) : Statement (.setGamma m curve) := of_w0 rfl
theorem color565 (m : Mode) (r g b : Byte) : Statement (.color565 m r g b) := of_w0 rfl

end Sys2Proof.Laws.Fields
end

