-- ==== Sys2Proof/Tests/Slice0.lean ====
section
/-! SUPPORT. Tests against the spec's own vectors (95_test_vectors.md, named in each comment), the smoke test of the
well-formedness checks, and a witness for the hypotheses of each statement. -/

namespace Sys2Proof.Tests

open Sys2Proof Sys2Proof.Machine

/-! ## Ill-formed descriptors: one for each check -/

theorem test_wf_good : Desc.wellFormed ⟨0x00000001, 0, 0, 0⟩ = true := by decide
theorem test_wf_op : Desc.opAssigned ⟨0x00000007, 0, 0, 0⟩ = false ∧ Desc.wellFormed ⟨0x00000007, 0, 0, 0⟩ = false := by
  decide
theorem test_wf_reserved : Desc.reservedZero ⟨0x00000201, 0, 0, 0⟩ = false ∧
    Desc.wellFormed ⟨0x00000201, 0, 0, 0⟩ = false ∧ Desc.wellFormed ⟨0x01000001, 0, 0, 0⟩ = false := by decide
theorem test_wf_imm8 : Desc.imm8Legal ⟨0x00010001, 0, 0, 0⟩ = false ∧ Desc.wellFormed ⟨0x00010001, 0, 0, 0⟩ = false ∧
    Desc.wellFormed ⟨0x00020017, 0, 0, 0⟩ = false := by decide
theorem test_wf_unused : Desc.unusedZero ⟨0x00000001, 1, 0, 0⟩ = false ∧ Desc.wellFormed ⟨0x00000001, 1, 0, 0⟩ = false ∧
    Desc.wellFormed ⟨0x00000010, 0x00020001, 0, 0x00010000⟩ = false ∧
    Desc.wellFormed ⟨0x00000020, 0x01000000, 0, 0⟩ = false ∧ Desc.wellFormed ⟨0x00000004, 0x40, 4, 7⟩ = false := by decide

/-! ## Decoding: a word of each request, written out from 30 R105 and R107 -/

theorem test_decode_select : decode ⟨0x00000001, 0, 0, 0⟩ = .ok (.select .byte) := by decide
theorem test_decode_unselect : decode ⟨0x00000102, 0, 0, 0⟩ = .ok (.unselect .burst) := by decide
theorem test_decode_wrcmd : decode ⟨0x002C0003, 0, 0, 0⟩ = .ok (.wrcmd .byte 0x2C) := by decide
theorem test_decode_wrdata : decode ⟨0x00000104, 0x00000040, 0x00000004, 0⟩ = .ok (.wrdata .burst 0x40 4) := by decide
theorem test_decode_setwin : decode ⟨0x00000005, 0x00010001, 0x00020003, 0⟩ = .ok (.setwin .byte 1 1 3 2) := by decide
theorem test_decode_init : decode ⟨0x00000106, 0, 0, 0⟩ = .ok (.init .burst) := by decide
theorem test_decode_drawPixel :
    decode ⟨0x00000010, 0x00050003, 0, 0x000007E0⟩ = .ok (.drawPixel .byte 3 5 0x07E0) := by decide
theorem test_decode_fillRect :
    decode ⟨0x00000011, 0x0000007E, 0x00010005, 0x0000F800⟩ = .ok (.fillRect .byte 126 0 5 1 0xF800) := by decide
theorem test_decode_fillRectFast :
    decode ⟨0x00000112, 0x0000007E, 0x00010005, 0x0000F800⟩ = .ok (.fillRectFast .burst 126 0 5 1 0xF800) := by decide
theorem test_decode_drawImage :
    decode ⟨0x00000013, 0x00000000, 0x00010002, 0x00000200⟩ = .ok (.drawImage .byte 0 0 2 1 0x200) := by decide
theorem test_decode_writeString :
    decode ⟨0x00FF0014, 0x00020001, 0x0000FFFF, 0x00000080⟩ = .ok (.writeString .byte 255 1 2 0xFFFF 0 0x80) := by decide
theorem test_decode_fillScreen : decode ⟨0x00000015, 0, 0, 0x0000001F⟩ = .ok (.fillScreen .byte 0x1F) := by decide
theorem test_decode_fillScreenFast : decode ⟨0x00000116, 0, 0, 0x0000001F⟩ = .ok (.fillScreenFast .burst 0x1F) := by decide
theorem test_decode_invert : decode ⟨0x00010017, 0, 0, 0⟩ = .ok (.invert .byte true) := by decide
theorem test_decode_setGamma : decode ⟨0x00080118, 0, 0, 0⟩ = .ok (.setGamma .burst 0x08) := by decide
theorem test_decode_color565 : decode ⟨0x00000020, 0x00563412, 0, 0⟩ = .ok (.color565 .byte 0x12 0x34 0x56) := by decide

/-- V-DEC: the illegal rows, by name. -/
theorem test_decode_illegal :
    decode ⟨0x00000000, 0, 0, 0⟩ = .error (.unassignedOp 0x00) ∧
    decode ⟨0x000000FF, 0, 0, 0⟩ = .error (.unassignedOp 0xFF) ∧
    decode ⟨0x00000201, 0, 0, 0⟩ = .error (.reservedBits 0x01) ∧
    decode ⟨0x01000001, 0, 0, 0⟩ = .error (.reservedBits 0x01) ∧
    decode ⟨0x00020017, 0, 0, 0⟩ = .error (.reservedBits 0x17) ∧
    decode ⟨0x00000001, 1, 0, 0⟩ = .error (.nonzeroField 0x01) ∧
    decode ⟨0x00000010, 0x00020001, 0, 0x00010000⟩ = .error (.nonzeroField 0x10) ∧
    decode ⟨0x00000020, 0x01000000, 0, 0⟩ = .error (.nonzeroField 0x20) ∧
    decode ⟨0x00000004, 0x40, 4, 7⟩ = .error (.nonzeroField 0x04) := by decide

/-- The opcode table's numbering: the second word is bits 63..32. -/
theorem test_table_word :
    decodeTableWord 32 0x00000006 = some (.init .byte) ∧ decodeTableWord 64 0x000000FF00000020 = some (.color565 .byte 255 0 0) ∧
    decodeTableWord 32 0x000000FF00000020 = some (.color565 .byte 0 0 0) := by decide

/-! ## Helpers: the states the vectors start from -/

/-- A field of the next state, if there is one. -/
def after {α : Type} (o : Host.Outcome State Fault Refusal) (f : State → α) : Option α :=
  match o with
  | .next t => some (f t)
  | _ => none

/-- Whether a step answers a next state. -/
def isNext (o : Host.Outcome State Fault Refusal) : Bool := (after o fun _ => ()).isSome

/-- Frames that complete. -/
def oks (n : Nat) : List BusOutcome := List.replicate n .ok

/-- The state after reset, on the vectors' platform. -/
def fresh : State := State.powerOn vectorPlatform

/-- `PanelReady` of 95, Conventions. -/
def panelReady : State := { fresh with pstate := .ready }

/-- With a request latched and a bus that completes its frames. -/
def due (s : State) (d : Desc) (n : Nat) : State := { s.latch d with bus := oks n }

/-- The vectors' platform with `IMAGE_CLIP_MODE = crop`. -/
def cropPlatform : Platform := ⟨{ vectorConfig with imageClipMode := .crop }, by decide⟩

/-- The vectors' platform with two scripts: IN3 and one of IN7. -/
def scriptPlatform : Platform :=
  ⟨{ vectorConfig with scripts := [[2, 0x11, 0x80, 255, 0x3A, 0x01, 0x05], [1, 0x29, 0x00]] }, by decide⟩

/-! ## Requests: one step each -/

/-- The host's question: does the very next step run the request, from reset? -/
theorem test_first_step :
    ([0x01, 0x02, 0x03, 0x04, 0x05, 0x06, 0x10, 0x11, 0x12, 0x13, 0x14, 0x15, 0x16, 0x17, 0x18, 0x20].all
      fun w => isNext (step (State.reset.withFetchWord 32 w))) = true := by decide

/-- TR1. -/
theorem test_select : after (step (fresh.withFetchWord 32 0x01)) (fun t => (t.trace, t.status)) =
    some ([.csLow], 0x00000040) := by decide

/-- TR2. -/
theorem test_select_twice :
    after (step (due { fresh with cs := false } ⟨0x01, 0, 0, 0⟩ 0)) (fun t => (t.trace, t.status)) =
      some ([], 0x00000040) := by decide

/-- S8. -/
theorem test_unselect : after (step (due { fresh with cs := false } ⟨0x02, 0, 0, 0⟩ 0)) (fun t => (t.trace, t.status)) =
    some ([.csHigh], 0x00000050) := by decide

/-- TR7. -/
theorem test_wrcmd : after (step (due fresh ⟨0x002C0003, 0, 0, 0⟩ 1)) (fun t => (t.trace, t.status)) =
    some ([.byte true false 0x2C], 0x00000050) := by decide

/-- TR14. -/
theorem test_wrcmd_err :
    after (step { due { fresh with cs := false } ⟨0x00110003, 0, 0, 0⟩ 0 with bus := [.err] }) (fun t => (t.trace, t.status)) =
      some ([.csHigh], 0x00030152) := by decide

/-- TR4. -/
theorem test_wrdata :
    after (step (due { fresh with cs := false, mem := [(0x40, 1), (0x41, 2), (0x42, 3)] } ⟨0x104, 0x40, 3, 0⟩ 3))
      (fun t => (t.trace, t.status)) =
      some ([.byte false true 1, .byte false true 2, .byte false true 3], 0x000000E0) := by decide

/-- TR13. -/
theorem test_wrdata_err :
    after (step { due { fresh with cs := false, mem := [(0x40, 1), (0x41, 2), (0x42, 3)] } ⟨0x104, 0x40, 3, 0⟩ 0 with
      bus := [.ok, .err] }) (fun t => (t.trace, t.status)) =
      some ([.byte false true 1, .csHigh], 0x00040172) := by decide

/-- WN1. -/
theorem test_setwin :
    after (step (due { panelReady with cs := false } ⟨0x05, 0, 0x00020003, 0⟩ 11)) (fun t => (t.win0, t.win1, t.status)) =
      some (0x00000000, 0x00020003, 0x0000004C) := by decide

/-- WN5. -/
theorem test_setwin_bad :
    after (step (due { panelReady with cs := false } ⟨0x05, 0x00000002, 0x00000001, 0⟩ 11)) (fun t => (t.trace, t.status)) =
      some ([.csHigh], 0x0005045E) := by decide

/-- IN1. -/
theorem test_init :
    after (step (due fresh ⟨0x06, 0, 0, 0⟩ 1)) (fun t => (t.trace, t.status)) =
      some ([.csLow, .rstLow, .delay 5, .rstHigh, .byte false false 0xAB, .delay 10, .csHigh], 0x0000005C) := by decide

/-- IN3 and IN7: the sentinel, an argument, and the scripts in list order. -/
theorem test_init_scripts :
    after (step (due (State.powerOn scriptPlatform) ⟨0x06, 0, 0, 0⟩ 4)) (fun t => t.trace.drop 4) =
      some [.byte false false 0x11, .delay 500, .byte false false 0x3A, .byte false true 0x05, .byte false false 0x29,
        .csHigh] := by decide

/-- DR1. -/
theorem test_drawPixel :
    after (step (due panelReady ⟨0x10, 0x00020003, 0, 0x1234⟩ 13)) (fun t => (t.trace.drop 12, t.win0, t.win1, t.status)) =
      some ([.byte false true 0x12, .byte false true 0x34, .csHigh], 0x00020003, 0x00020003, 0x0000007C) := by decide

/-- DR2. -/
theorem test_drawPixel_off :
    after (step (due panelReady ⟨0x10, 0x00000004, 0, 0x1234⟩ 13)) (fun t => (t.trace, t.status)) =
      some ([], 0x0000005C) := by decide

/-- DR5. -/
theorem test_fillRect :
    after (step (due panelReady ⟨0x11, 0x00010002, 0x00050005, 0xABCD⟩ 19)) (fun t => (t.trace, t.win0, t.win1)) =
      some ([.csLow, .byte false false 0x2A, .byte false true 0, .byte false true 2, .byte false true 0, .byte false true 3,
        .byte false false 0x2B, .byte false true 0, .byte false true 1, .byte false true 0, .byte false true 2,
        .byte false false 0x2C, .byte false true 0xAB, .byte false true 0xCD, .byte false true 0xAB, .byte false true 0xCD,
        .byte false true 0xAB, .byte false true 0xCD, .byte false true 0xAB, .byte false true 0xCD, .csHigh],
        0x00010002, 0x00020003) := by decide

/-- EX8. -/
theorem test_fillRect_err :
    after (step { due panelReady ⟨0x111, 0, 0x00030004, 0x1234⟩ 0 with bus := oks 19 ++ [.err] })
      (fun t => (t.trace.length, t.status)) = some (21, 0x0011017E) := by decide

/-- DR6, in burst mode: the same bytes as DR5. -/
theorem test_fillRectFast :
    after (step (due panelReady ⟨0x112, 0x00010002, 0x00050005, 0xABCD⟩ 19)) (fun t => (t.trace.drop 12, t.done)) =
      some ([.byte false true 0xAB, .byte false true 0xCD, .byte false true 0xAB, .byte false true 0xCD,
        .byte false true 0xAB, .byte false true 0xCD, .byte false true 0xAB, .byte false true 0xCD, .csHigh], true) := by
  decide

/-- DR11. -/
theorem test_drawImage :
    after (step (due { panelReady with mem := [(0x10, 1), (0x11, 2), (0x12, 3), (0x13, 4)] } ⟨0x13, 0, 0x00010002, 0x10⟩ 15))
      (fun t => t.trace.drop 12) =
      some [.byte false true 1, .byte false true 2, .byte false true 3, .byte false true 4, .csHigh] := by decide

/-- DR14: `crop`, the buffer's stride kept (the buffer starts at 0x20, each byte equal to its address). -/
theorem test_drawImage_crop :
    after (step (due { panelReady with
        cfg := cropPlatform
        mem := [(0x20, 0x20), (0x21, 0x21), (0x22, 0x22), (0x23, 0x23), (0x26, 0x26), (0x27, 0x27), (0x28, 0x28),
          (0x29, 0x29)] } ⟨0x13, 0x00010002, 0x00020003, 0x20⟩ 19))
      (fun t => t.trace.drop 12) =
      some [.byte false true 0x20, .byte false true 0x21, .byte false true 0x22, .byte false true 0x23,
        .byte false true 0x26, .byte false true 0x27, .byte false true 0x28, .byte false true 0x29, .csHigh] := by decide

/-- ST1. -/
theorem test_writeString :
    after (step (due { panelReady with mem := [(0x80, 0x41)] } ⟨0x14, 0, 0x0000FFFF, 0x80⟩ 15)) (fun t => t.trace.drop 12) =
      some [.byte false true 0xFF, .byte false true 0xFF, .byte false true 0x00, .byte false true 0x00, .csHigh] := by decide

/-- ST4: both spaces at the start of the wrapped line are skipped, and the third glyph is at (0, 1). -/
theorem test_writeString_wrap :
    after (step (due { panelReady with mem := [(0x80, 0x41), (0x81, 0x42), (0x82, 0x20), (0x83, 0x20), (0x84, 0x41)] }
      ⟨0x14, 0, 0x0000FFFF, 0x80⟩ 45)) (fun t => (t.trace.length, t.win0, t.win1)) =
      some (47, 0x00010000, 0x00010001) := by decide

/-- DR9. -/
theorem test_fillScreen :
    after (step (due panelReady ⟨0x15, 0, 0, 0⟩ 35)) (fun t => (t.trace.length, t.win1)) = some (37, 0x00020003) := by decide

/-- P1: 3 bursts of 8 bytes. -/
theorem test_fillScreenFast :
    after (step (due panelReady ⟨0x116, 0, 0, 0x001F⟩ 35)) (fun t => (t.trace.length, t.status)) =
      some (37, 0x000000FC) := by decide

/-- MD1. -/
theorem test_invert :
    after (step (due panelReady ⟨0x00010017, 0, 0, 0⟩ 1)) (fun t => (t.trace, t.status)) =
      some ([.csLow, .byte false false 0x21, .csHigh], 0x0000005C) := by decide

/-- MD6. -/
theorem test_invert_notReady :
    after (step (due fresh ⟨0x00010017, 0, 0, 0⟩ 1)) (fun t => (t.trace, t.status)) = some ([], 0x00170352) := by decide

/-- MD5. -/
theorem test_setGamma :
    after (step (due panelReady ⟨0x00080118, 0, 0, 0⟩ 2)) (fun t => (t.trace, t.status)) =
      some ([.csLow, .byte false false 0x26, .byte false true 0x08, .csHigh], 0x000000FC) := by decide

/-- V-COL. -/
theorem test_color565 :
    after (step (due fresh ⟨0x20, 0x00563412, 0, 0⟩ 0)) (fun t => (t.trace, t.result, t.status)) =
      some ([], 0x000011AA, 0x00000050) := by decide

/-- 45 R240, the corner cases. -/
theorem test_pack565 : pack565 7 3 7 = 0x0000 ∧ pack565 8 4 8 = 0x0821 ∧ pack565 128 128 128 = 0x8410 := by decide

/-- EX2: `ILLEGAL_REQUEST`, not `NOT_READY`. -/
theorem test_illegal : after (step (due fresh ⟨0x00000210, 0, 0, 0⟩ 0)) (fun t => t.status) = some 0x00100252 := by decide

/-- 30 R124, 41 R165 and IN11. -/
theorem test_script : scriptLen [1, 0xAB, 0x80, 10] = 4 ∧ delayMs 255 = 500 ∧ delayMs 254 = 254 ∧
    scriptWellFormed [1, 0x01, 0x02, 0x07] = false := by decide

/-- S3. -/
theorem test_clip : clip vectorConfig 2 1 5 5 = some (2, 2) ∧ clip vectorConfig 4 0 1 1 = none ∧
    clip vectorConfig 0 3 1 1 = none ∧ clip vectorConfig 0 0 0 3 = none := by decide

/-- P3's panel: two red pixels at columns 1 and 2 of row 1 (20 R92). -/
theorem test_panel :
    (Panel.view vectorConfig Panel.fresh
      (.csLow :: windowEvents vectorConfig false ⟨1, 1, 2, 1⟩ ++ dataEvents false [0xF8, 0x00, 0xF8, 0x00])).pixels =
      [(1, 1, 0xF800), (2, 1, 0xF800)] := by decide

/-- 20 R92, R93: a column range 2 to 0 has `XE - XS + 1 = -1`, so the bound is below 0 and no pixel has a place; a range of one
column and one row has one. -/
theorem test_panel_inverted :
    (let p := Panel.view vectorConfig Panel.fresh
        (windowEvents vectorConfig false ⟨2, 0, 0, 1⟩ ++ dataEvents false [0xF8, 0x00])
     (p.pixels, p.beyond)) = ([], [0xF800]) ∧
    (let p := Panel.view vectorConfig Panel.fresh
        (windowEvents vectorConfig false ⟨3, 2, 3, 2⟩ ++ dataEvents false [0xF8, 0x00, 0x07, 0xE0])
     (p.pixels, p.beyond)) = ([(3, 2, 0xF800)], [0x07E0]) := by decide

/-- 30 R125: `SETWIN 0, 0, 1, 0` and a `.dma` line. -/
theorem test_assembler :
    assembleLine "SETWIN 0, 0, 1, 0".toList = some (.setwin .byte 0 0 1 0) ∧
    assembleLine "WRDATA.dma 0x40, 4".toList = some (.wrdata .burst 0x40 4) ∧
    assembleLine "SELECT".toList = some (.select .byte) ∧ assembleLine "SET_GAMMA 256".toList = none ∧
    assembleLine "WRCMD 1 2".toList = none := by decide

/-- 30 R127: `SENDCMD` and `BLIT`. -/
theorem test_pseudo :
    (Pseudo.sendCmd 0x29).expand .byte = [.select .byte, .wrcmd .byte 0x29, .unselect .byte] ∧
    (Pseudo.blit 0x40 4 3).expand .byte = [.drawImage .byte 0 0 4 3 0x40] := by decide

/-! ## The host's port and the other agents -/

/-- The doorbell of a SELECT, one host turn (30 R113). -/
theorem test_doorbell :
    after (step { fresh with host := [.writeReg 0 32 1] }) (fun t => (t.status, t.lreq.w0, t.trace)) =
      some (0x00000051, 1, []) := by decide

/-- 20 R71, U7: a 16-bit access is refused by name. -/
theorem test_narrow_access :
    (match step { fresh with host := [.readReg 0x10 16] } with
     | .refused r => some r
     | _ => none) = some (.registerAccessForm 16 0x10) := by decide

/-- RS3: a hardware reset in the middle of a burst. -/
theorem test_reset_mid_burst :
    after (step { fresh with
        seq := .exec, todo := some [], cs := false, dc := true, dma := .active (.mem 0x40) 3 1, sched := [.hwReset] })
      (fun t => (t.trace, t.status)) = some ([.csHigh], 0x00000050) := by decide

/-- EX6: `CTRL` while halted. -/
theorem test_soft_reset :
    after (step { fresh with seq := .halted, faultCode := 2, host := [.writeReg 0x20 32 1] }) (fun t => t.status) =
      some 0x00000050 := by decide

/-- U10: a host store between the steps of a running WRDATA changes the byte not yet sent (20 R88). -/
theorem test_race :
    after (step { fresh with
        seq := .exec, todo := some [.tx (.mem 0x40) 0], sched := [.host], host := [.store 0x40 [9]] })
      (fun t => (Mem.read t.mem 0x40, t.todo)) = some (9, some [.tx (.mem 0x40) 0]) := by decide

/-- A character that a host store has turned to 0x00 since `StrLen` scanned it: `L` is kept and its cell is drawn (log 27): 22
steps, the last of them the loop at the next character. -/
theorem test_nul_race :
    (State.blockStep { panelReady with seq := .exec, todo := some [.strDraw ⟨.burst, 0, 1, 0, 0x80⟩ 1 0 0 0 false] }).todo.map
      (fun l => (l.length, l.getLast?)) = some (15, some (.strDraw ⟨.burst, 0, 1, 0, 0x80⟩ 1 1 2 0 false)) := by decide

/-- 70 R300: a run has ended with only host reads left, and has not with a host write pending. -/
theorem test_ended :
    State.Ended { fresh with host := [.readReg 0x10 32, .waitIdle] } ∧ ¬ State.Ended { fresh with host := [.writeReg 4 32 0] } := by
  decide

/-! ## Witnesses: for each statement with hypotheses, a state and operands that meet them, clause by clause, at boundaries -/

/-- A latched request on the vectors' platform, with a bus that answers `bus`. -/
def lat (s : State) (bus : List BusOutcome) : State := { s.latch Desc.zero with bus := bus }

/-- A state in which the host is due for one turn, with the access `op` to make. -/
def hostDue (s : State) (op : HostOp) : State := { s with sched := [.host, .block], host := [op, .waitIdle] }

/-- A burst in flight: byte 1 of 3, with the rest of a WRDATA to come. -/
def midBurst : State :=
  { fresh with
    seq := .exec, todo := some [], cs := false, dc := true, dma := .active (.mem 0xFD) 3 1, bus := [.ok]
    mem := [(0xFD, 1), (0xFE, 2), (0xFF, 3)], lineBuf := List.replicate 8 0 }

theorem witness_EncodeOfDecode : decode ⟨0x00FF0114, 0x00020001, 0x0000FFFF, 0x00000080⟩ =
    .ok (.writeString .burst 255 1 2 0xFFFF 0 0x80) := by decide

theorem witness_ModeBitChangesModeOnly :
    decode ⟨0x00000001, 0, 0, 0⟩ = .ok (.select .byte) ∧ decode ⟨0x00FF0103, 0, 0, 0⟩ = .ok (.wrcmd .burst 0xFF) := by decide

theorem witness_StepRunsDecodedRequest :
    (due fresh ⟨1, 0, 0, 0⟩ 0).Latched ∧ (due fresh ⟨1, 0, 0, 0⟩ 0).sched = [] ∧
    decode (due fresh ⟨1, 0, 0, 0⟩ 0).lreq = .ok (.select .byte) ∧
    State.Latched { due fresh ⟨1, 0, 0, 0⟩ 0 with sched := [.block, .host] } ∧
    decodeTableWord 32 0x102 = some (.unselect .burst) := by decide

theorem witness_IllegalDescriptorFaults :
    (due fresh ⟨0, 0, 0, 0⟩ 0).Latched ∧ decode (due fresh ⟨0, 0, 0, 0⟩ 0).lreq = .error (.unassignedOp 0) ∧
    (due fresh ⟨0, 0, 0, 0⟩ 0).sched = [] ∧ State.Latched { due fresh ⟨0, 0, 0, 0⟩ 0 with sched := [.block] } := by decide

theorem witness_SelectDrivesCsLow :
    (lat fresh []).Latched ∧ (lat fresh []).cs = true ∧ (lat { fresh with cs := false } []).Latched := by decide

theorem witness_UnselectDrivesCsHigh :
    (lat fresh []).Latched ∧ (lat fresh []).cs = true ∧ (lat { fresh with cs := false } []).Latched := by decide

theorem witness_Color565PacksResult : (lat fresh []).Latched ∧ (lat panelReady []).Latched ∧
    (0x01000000 : Word).extractLsb' 24 8 ≠ 0 ∧ (1 : Word) ≠ 0 := by decide

theorem witness_WrcmdSendsCommandByte :
    (lat fresh [.ok]).Latched ∧ (lat fresh [.ok]).frame 0 = .ok ∧
    (lat fresh [.err]).Latched ∧ (lat fresh [.err]).frame 0 = .err := by decide

theorem witness_WrdataSendsBuffer :
    (lat fresh (oks 2)).Latched ∧ bufOK vectorConfig 0xFE 2 = true ∧ (lat fresh (oks 2)).FramesOk 2 ∧
    bufOK vectorConfig 0xFFFFFFFF 0 = true ∧ bufOK vectorConfig 0xFF 2 = false ∧
    bufOK vectorConfig 0xFFFFFFFF 0xFFFFFFFF = false ∧
    (lat fresh [.ok, .err]).FramesOk 1 ∧ (lat fresh [.ok, .err]).frame 1 = .err ∧ (lat fresh [.err]).FramesOk 0 ∧
    (lat fresh [.err]).frame 0 = .err := by decide

theorem witness_SetwinSelectsWindow :
    (lat panelReady (oks 11)).Latched ∧ (lat panelReady (oks 11)).pstate = .ready ∧
    Window.inPanel ⟨0, 0, 3, 2⟩ vectorConfig = true ∧ Window.inPanel ⟨3, 2, 3, 2⟩ vectorConfig = true ∧
    (lat panelReady (oks 11)).FramesOk 11 ∧
    (lat panelReady (oks 10 ++ [.err])).FramesOk 10 ∧ (lat panelReady (oks 10 ++ [.err])).frame 10 = .err ∧
    (lat panelReady [.err]).FramesOk 0 ∧ (lat panelReady [.err]).frame 0 = .err := by decide

theorem witness_InitRunsScripts :
    (lat (State.powerOn scriptPlatform) (oks 4)).Latched ∧
    (lat (State.powerOn scriptPlatform) (oks 4)).FramesOk
      ((allEntries scriptPlatform.val).map fun e => 1 + e.args.length).sum ∧
    3 < ((allEntries scriptPlatform.val).map fun e => 1 + e.args.length).sum ∧
    (lat (State.powerOn scriptPlatform) (oks 3 ++ [.err])).FramesOk 3 ∧
    (lat (State.powerOn scriptPlatform) (oks 3 ++ [.err])).frame 3 = .err ∧
    (lat (State.powerOn scriptPlatform) [.err]).frame 0 = .err ∧ (lat panelReady (oks 1)).Latched ∧
    (lat panelReady (oks 1)).FramesOk ((allEntries vectorConfig).map fun e => 1 + e.args.length).sum := by decide

theorem witness_DrawPixelPaints :
    (lat panelReady (oks 13)).Latched ∧ (lat panelReady (oks 13)).pstate = .ready ∧ (lat panelReady (oks 13)).FramesOk 13 ∧
    (3 : Half).toNat < (lat panelReady (oks 13)).cfg.val.panelW ∧ (2 : Half).toNat < (lat panelReady []).cfg.val.panelH ∧
    (lat panelReady (oks 12 ++ [.err])).FramesOk 12 ∧ (lat panelReady (oks 12 ++ [.err])).frame 12 = .err ∧
    (lat panelReady [.err]).FramesOk 0 ∧ (lat panelReady [.err]).frame 0 = .err ∧
    (lat panelReady []).cfg.val.panelW ≤ (4 : Half).toNat ∧ (lat panelReady []).cfg.val.panelH ≤ (3 : Half).toNat := by decide

theorem witness_FillRectPaints :
    (lat panelReady (oks 13)).Latched ∧ (lat panelReady (oks 13)).pstate = .ready ∧
    (1 = min (0xFFFF : Half).toNat (vectorConfig.panelW - (3 : Half).toNat)) ∧
    (1 = min (0xFFFF : Half).toNat (vectorConfig.panelH - (2 : Half).toNat)) ∧
    (3 : Half).toNat < vectorConfig.panelW ∧ (2 : Half).toNat < vectorConfig.panelH ∧
    (lat panelReady (oks 13)).FramesOk (11 + 2 * (1 * 1)) ∧ (lat panelReady (oks 35)).FramesOk (11 + 2 * (4 * 3)) ∧
    (lat panelReady (oks 10 ++ [.err])).FramesOk 10 ∧ (lat panelReady (oks 10 ++ [.err])).frame 10 = .err ∧
    (lat panelReady (oks 34 ++ [.err])).FramesOk 34 ∧ (lat panelReady (oks 34 ++ [.err])).frame 34 = .err ∧
    (0 = min (0 : Half).toNat (vectorConfig.panelW - (0 : Half).toNat)) ∧ vectorConfig.panelW ≤ (4 : Half).toNat ∧
    vectorConfig.panelH ≤ (3 : Half).toNat := by decide

theorem witness_FillRectFastPaints :
    (lat panelReady (oks 13)).Latched ∧ (lat panelReady (oks 13)).pstate = .ready ∧
    (lat panelReady (oks 13)).lineBuf.length = 2 * (lat panelReady (oks 13)).cfg.val.panelW ∧
    (lat panelReady (oks 11 ++ [.err])).FramesOk 11 ∧ (lat panelReady (oks 11 ++ [.err])).frame 11 = .err ∧
    (lat panelReady (oks 10 ++ [.err])).FramesOk 10 ∧ (lat panelReady (oks 10 ++ [.err])).frame 10 = .err ∧
    (lat panelReady (oks 13)).FramesOk (11 + 2 * (1 * 1)) ∧ (lat panelReady (oks 35)).FramesOk (11 + 2 * (4 * 3)) := by decide

theorem witness_DrawImagePaints :
    (lat panelReady (oks 35)).Latched ∧ (lat panelReady (oks 35)).pstate = .ready ∧
    clip vectorConfig 4 0 1 1 = none ∧ clip vectorConfig 0 0 4 0 = none ∧
    clip vectorConfig 0 0 4 3 = some (4, 3) ∧ bufOK vectorConfig 0xE8 (2 * 4 * 3) = true ∧
    (lat panelReady (oks 35)).FramesOk (11 + 2 * (4 * 3)) ∧
    clip vectorConfig 2 1 3 2 = some (2, 2) ∧ vectorConfig.imageClipMode = .skip ∧
    clip cropPlatform.val 2 1 3 2 = some (2, 2) ∧ cropPlatform.val.imageClipMode = .crop ∧
    bufOK cropPlatform.val 0xF4 (2 * 3 * 2) = true ∧
    (lat { panelReady with cfg := cropPlatform } (oks 19)).Latched ∧
    (lat { panelReady with cfg := cropPlatform } (oks 19)).FramesOk (11 + 2 * (2 * 2)) ∧
    (lat panelReady (oks 34 ++ [.err])).FramesOk 34 ∧ (lat panelReady (oks 34 ++ [.err])).frame 34 = .err ∧
    (lat { panelReady with cfg := cropPlatform } (oks 18 ++ [.err])).FramesOk 18 ∧
    (lat { panelReady with cfg := cropPlatform } (oks 18 ++ [.err])).frame 18 = .err := by decide

/-- One glyph at the last cell of the panel; and the empty string at the last byte of host memory. -/
theorem witness_WriteStringDrawsCells :
    (lat { panelReady with mem := [(0xFE, 0x41)] } (oks 15)).Latched ∧
    (0 : Byte).toNat < vectorConfig.fontCount ∧ 0xFE + [(0x41 : Byte)].length < vectorConfig.hostMemSize ∧
    (lat { panelReady with mem := [(0xFE, 0x41)] } (oks 15)).memBytes 0xFE 1 = [0x41] ∧
    (∀ ch ∈ [(0x41 : Byte)], ch ≠ 0) ∧ Mem.read [(0xFE, 0x41)] 0xFF = 0 ∧
    layout vectorConfig (font vectorConfig 0) [0x41] 2 2 false = [(0x41, 2, 2)] ∧
    (lat { panelReady with mem := [(0xFE, 0x41)] } (oks 15)).FramesOk (1 * (11 + 2 * (2 * 1))) ∧
    (lat { panelReady with mem := [(0xFE, 0x41)] } (oks 14 ++ [.err])).FramesOk 14 ∧
    (lat { panelReady with mem := [(0xFE, 0x41)] } (oks 14 ++ [.err])).frame 14 = .err ∧
    0xFF + ([] : List Byte).length < vectorConfig.hostMemSize ∧ (lat panelReady []).memBytes 0xFF 0 = [] ∧
    (lat panelReady []).FramesOk (0 * (11 + 2 * (2 * 1))) := by decide

theorem witness_FillScreenPaints :
    (lat panelReady (oks 35)).Latched ∧ (lat panelReady (oks 35)).pstate = .ready ∧
    (lat panelReady (oks 35)).FramesOk (11 + 2 * (vectorConfig.panelW * vectorConfig.panelH)) ∧
    (lat panelReady (oks 34 ++ [.err])).FramesOk 34 ∧ (lat panelReady (oks 34 ++ [.err])).frame 34 = .err ∧
    (lat panelReady (oks 35)).lineBuf.length = 2 * vectorConfig.panelW := by decide

theorem witness_InvertSendsCommand :
    (lat fresh []).Latched ∧ (lat fresh []).pstate ≠ .ready ∧ (lat panelReady [.ok]).Latched ∧
    (lat panelReady [.ok]).pstate = .ready ∧ (lat panelReady [.ok]).frame 0 = .ok ∧ (lat panelReady [.err]).frame 0 = .err ∧
    1 < (2 : Byte).toNat := by decide

theorem witness_SetGammaSendsCurve :
    (lat fresh []).Latched ∧ (lat fresh []).pstate ≠ .ready ∧ (lat panelReady (oks 2)).Latched ∧
    (lat panelReady (oks 2)).pstate = .ready ∧ (lat panelReady (oks 2)).FramesOk 2 ∧
    (lat panelReady [.err]).frame 0 = .err ∧ (lat panelReady [.ok, .err]).frame 0 = .ok ∧
    (lat panelReady [.ok, .err]).frame 1 = .err := by decide

theorem witness_NotReadyFault :
    panelOp (.fillScreen .byte 0) = true ∧ fresh.pstate ≠ .ready ∧ plan (.fillScreen .byte 0) fresh = .error .notReady := by
  decide

theorem witness_BadOperandFault :
    panelReady.pstate = .ready ∧ ¬ ((0 : Half).toNat ≤ (4 : Half).toNat ∧ (4 : Half).toNat < panelReady.cfg.val.panelW) ∧
    ¬ (2 : Half).toNat ≤ (1 : Half).toNat ∧ panelReady.cfg.val.fontCount ≤ (1 : Byte).toNat ∧
    plan (.setwin .byte 0 0 4 2) panelReady = .error .badOperand ∧
    plan (.writeString .byte 1 0 0 0 0 0) panelReady = .error .badOperand := by decide

theorem witness_BufferFault :
    (lat panelReady []).Latched ∧ (lat panelReady []).pstate = .ready ∧ (2 : Word) ≠ 0 ∧
    vectorConfig.hostMemSize < (0xFF : Word).toNat + (2 : Word).toNat ∧
    clip vectorConfig 0 0 1 1 = some (1, 1) ∧ vectorConfig.hostMemSize < (0xFF : Word).toNat + 2 * 1 * 1 ∧
    clip cropPlatform.val 3 2 2 1 = some (1, 1) ∧ cropPlatform.val.imageClipMode = .crop ∧
    vectorConfig.hostMemSize < (0xFD : Word).toNat + 2 * 2 * 1 ∧ (0 : Byte).toNat < vectorConfig.fontCount := by decide

theorem witness_BufferFault_string :
    ∀ a, (0xFF : Word).toNat ≤ a → a < vectorConfig.hostMemSize → Mem.read [(0xFF, 0x41)] a ≠ 0 := by
  intro a h1 h2
  have h3 : vectorConfig.hostMemSize = 0x100 := rfl
  have h4 : (0xFF : Word).toNat = 0xFF := rfl
  obtain rfl : a = 0xFF := by omega
  decide

theorem witness_PreciseFaults : ∃ t, (lat panelReady []).Latched ∧
    exec (.wrdata .burst 0xFF 2) (lat panelReady []) = .next t ∧ t.seq = .halted ∧ t.faultCode ≠ 0x01 := by
  exact ⟨_, by decide, rfl, by decide⟩

theorem witness_TransportFaultAtErrorFrame : ∃ t u, (lat fresh [.ok, .err]).Latched ∧ (lat fresh [.ok, .never]).Latched ∧
    exec (.wrdata .burst 0xFE 2) (lat fresh [.ok, .err]) = .next t ∧ (lat fresh [.ok, .err]).draws + 1 < t.draws ∧
    (lat fresh [.ok, .err]).frame 1 = .err ∧ t.seq = .halted ∧ t.faultCode = 0x01 ∧
    exec (.wrdata .byte 0xFE 2) (lat fresh [.ok, .never]) = .next u ∧ (lat fresh [.ok, .never]).draws + 1 < u.draws ∧
    (lat fresh [.ok, .never]).frame 1 = .never := by
  exact ⟨_, _, by decide, by decide, rfl, by decide, by decide, by decide, by decide, rfl, by decide, by decide⟩

theorem witness_HaltedUntilReset : ∃ t u,
    step (hostDue { fresh with seq := .halted, faultCode := 2 } (.writeReg 0 32 1)) = .next t ∧
    step { fresh with seq := .halted, faultCode := 2, sched := [.hwReset] } = .next u :=
  ⟨_, _, rfl, rfl⟩

theorem witness_DmaEngineSteps :
    midBurst.canStep = true ∧ midBurst.dma = .active (.mem 0xFD) 3 1 ∧ midBurst.frame 0 = .ok ∧
    State.canStep { midBurst with dma := .active (.mem 0xFD) 3 3 } = true ∧
    State.canStep { midBurst with bus := [.err], dma := .active (.mem 0xFD) 3 2 } = true ∧
    State.frame { midBurst with bus := [.err] } 0 = .err ∧ midBurst.done = false ∧
    (State.blockStep { midBurst with dma := .active (.mem 0xFD) 3 3 }).done = true := by decide

theorem witness_DelayHoldsUntilTimer :
    State.canStep { fresh with seq := .exec, todo := some [.delay 10, .setRST true] } = true ∧
    State.canStep { fresh with seq := .exec, todo := some [.setRST true], timer := .waiting 10 } = true ∧
    fresh.dma = .idle ∧ fresh.timer = .idle := by decide

theorem witness_HungFrameNeverEnds :
    State.hung { midBurst with hung := true, sched := [.block] } = true ∧ midBurst.seq = .exec ∧
    (hostDue { midBurst with hung := true } (.writeReg (vectorConfig.blockBase + 0x20) 32 1)).host =
      .writeReg ((hostDue midBurst .waitIdle).cfg.val.blockBase + 0x20) 32 1 :: [.waitIdle] := by decide

theorem witness_ResetRestoresResetValues :
    State.sched { midBurst with sched := [.hwReset, .host] } = .hwReset :: [.host] ∧ fresh.seq ≠ .exec ∧
    (hostDue fresh (.writeReg 0x20 32 1)).sched = .host :: [.block] ∧
    (hostDue fresh (.writeReg 0x20 32 1)).host = .writeReg (fresh.cfg.val.blockBase + 0x20) 32 1 :: [.waitIdle] ∧
    (1 : Word).getLsbD 0 = true ∧ (0xFFFFFFFE : Word).getLsbD 0 = false := by decide

theorem witness_UnadmittedConfigurationRefused :
    configAdmitted { vectorConfig with panelW := 65536 } = false ∧ configAdmitted { vectorConfig with panelH := 0 } = false ∧
    configAdmitted { vectorConfig with scripts := [] } = false ∧ parseScript [1, 0xAB, 0x80] = none ∧
    configAdmitted { vectorConfig with fonts := [⟨17, 1, []⟩] } = false ∧
    configAdmitted { vectorConfig with hostMemSize := 0 } = false ∧ configAdmitted vectorConfig = true := by decide

theorem witness_RegisterReads :
    (hostDue midBurst (.readReg 0x3C 32)).sched = .host :: [.block] ∧
    (hostDue midBurst (.readReg 0x3C 32)).host = .readReg (midBurst.cfg.val.blockBase + BitVec.ofNat 32 0x3C) 32 :: [.waitIdle] ∧
    (hostDue fresh (.readReg 0 32)).host = .readReg (fresh.cfg.val.blockBase + BitVec.ofNat 32 0) 32 :: [.waitIdle] := by decide

theorem witness_HostWritesWhileIdle :
    (hostDue fresh (.writeReg 0 32 1)).seq = .idle ∧ (hostDue fresh (.writeReg 0 32 1)).sched = .host :: [.block] ∧
    (hostDue fresh (.writeReg 0 32 1)).host = .writeReg fresh.cfg.val.blockBase 32 1 :: [.waitIdle] ∧
    (hostDue fresh (.writeReg 4 32 9)).host = .writeReg (fresh.cfg.val.blockBase + 0x04) 32 9 :: [.waitIdle] ∧
    (hostDue fresh (.writeReg 8 32 9)).host = .writeReg (fresh.cfg.val.blockBase + 0x08) 32 9 :: [.waitIdle] ∧
    (hostDue fresh (.writeReg 12 32 9)).host = .writeReg (fresh.cfg.val.blockBase + 0x0C) 32 9 :: [.waitIdle] := by decide

theorem witness_HostWritesHeldWhileBusy :
    (hostDue midBurst (.writeReg 0x20 32 1)).seq = .exec ∧ (hostDue midBurst (.writeReg 0x20 32 1)).sched = .host :: [.block] ∧
    (hostDue midBurst (.writeReg 0x20 32 1)).host =
      .writeReg (midBurst.cfg.val.blockBase + BitVec.ofNat 32 0x20) 32 1 :: [.waitIdle] ∧
    (hostDue midBurst (.writeReg 0 32 1)).host =
      .writeReg (midBurst.cfg.val.blockBase + BitVec.ofNat 32 0x00) 32 1 :: [.waitIdle] := by decide

theorem witness_HostWritesWhileHalted :
    (hostDue { fresh with seq := .halted, faultCode := 2 } (.writeReg 0x0C 32 7)).seq = .halted ∧
    (hostDue { fresh with seq := .halted, faultCode := 2 } (.writeReg 0x0C 32 7)).host =
      .writeReg (fresh.cfg.val.blockBase + BitVec.ofNat 32 0x0C) 32 7 :: [.waitIdle] ∧
    (hostDue { fresh with seq := .halted, faultCode := 2 } (.writeReg 0x20 32 1)).host =
      .writeReg (fresh.cfg.val.blockBase + BitVec.ofNat 32 0x20) 32 1 :: [.waitIdle] := by decide

theorem witness_ReadOnlyWritesIgnored :
    (hostDue midBurst (.writeReg 0x10 32 1)).sched = .host :: [.block] ∧
    (hostDue midBurst (.writeReg 0x10 32 1)).host =
      .writeReg (midBurst.cfg.val.blockBase + BitVec.ofNat 32 0x10) 32 1 :: [.waitIdle] ∧
    (hostDue fresh (.writeReg 0x3C 32 1)).host =
      .writeReg (fresh.cfg.val.blockBase + BitVec.ofNat 32 0x3C) 32 1 :: [.waitIdle] := by decide

theorem witness_OddAccessRefused :
    (hostDue fresh (.readReg 0x3C 16)).sched = .host :: [.block] ∧
    (hostDue fresh (.readReg 0x3C 16)).host = .readReg (fresh.cfg.val.blockBase + BitVec.ofNat 32 0x3C) 16 :: [.waitIdle] ∧
    (hostDue fresh (.writeReg 0x3F 32 0)).host =
      .writeReg (fresh.cfg.val.blockBase + BitVec.ofNat 32 0x3F) 32 0 :: [.waitIdle] := by decide

theorem witness_HostStoreWritesExactly :
    Mem.wf (hostDue midBurst (.store 0xFE [0, 9])).mem = true ∧
    (hostDue midBurst (.store 0xFE [0, 9])).sched = .host :: [.block] ∧
    (hostDue midBurst (.store 0xFE [0, 9])).host = .store 0xFE [0, 9] :: [.waitIdle] ∧
    0xFE + [(0 : Byte), 9].length ≤ midBurst.cfg.val.hostMemSize := by decide

theorem witness_SubmitLatchesDescriptor :
    State.seq { fresh with host := submit 0 ⟨0x15, 0, 0, 1⟩ ++ [.waitIdle] } = .idle ∧
    State.sched { fresh with host := submit 0 ⟨0x15, 0, 0, 1⟩ ++ [.waitIdle] } = [] ∧
    State.host { fresh with host := submit 0 ⟨0x15, 0, 0, 1⟩ ++ [.waitIdle] } =
      submit fresh.cfg.val.blockBase ⟨0x15, 0, 0, 1⟩ ++ [.waitIdle] := by decide

theorem witness_AssemblerChecksFields :
    assemble "WRDATA" .byte [0xFFFFFFFF, 0] = some (.wrdata .byte 0xFFFFFFFF 0) ∧
    (2 ^ 32 ≤ 0xFFFFFFFF ∨ 2 ^ 32 ≤ 0x100000000) ∧ 2 ≤ 2 ∧
    assemble "WRDATA" .byte [0, 0x100000000] = none ∧
    assemble "FILL_RECT" .burst [65535, 0, 1, 1, 65535] = some (.fillRect .burst 65535 0 1 1 65535) ∧
    assemble "FILL_RECT" .burst [0, 0, 1, 1, 65536] = none ∧
    assemble "COLOR565" .byte [255, 0, 255] = some (.color565 .byte 255 0 255) ∧
    assemble "COLOR565" .byte [0, 256, 0] = none ∧ assemble "INVERT" .byte [2] = none := by decide

theorem witness_RequestsLeaveHostSideAlone : ∃ t,
    exec (.wrdata .burst 0xFD 3) (lat { fresh with mem := midBurst.mem } (oks 3)) = .next t := ⟨_, rfl⟩

theorem witness_RequestsOwnTheirRegisters : ∃ t,
    (lat panelReady (oks 11)).Latched ∧ exec (.setwin .byte 0 0 3 2) (lat panelReady (oks 11)) = .next t ∧ t.seq ≠ .halted ∧
    modeOf (.setwin .byte 0 0 3 2) = .byte := ⟨_, by decide, rfl, by decide, rfl⟩

theorem witness_TraceOnlyGrows : ∃ t, step { midBurst with sched := [.hwReset] } = .next t := ⟨_, rfl⟩

theorem witness_SequencerTransitions : ∃ a b c d e f,
    step (hostDue fresh (.writeReg 0 32 1)) = .next a ∧ a.seq = .exec ∧ fresh.seq = .idle ∧
    step { fresh with seq := .exec, todo := some [], sched := [.block] } = .next b ∧ b.seq = .idle ∧
    step { midBurst with bus := [.err], sched := [.block] } = .next c ∧ c.seq = .halted ∧
    step { fresh with seq := .halted, faultCode := 1, sched := [.hwReset] } = .next d ∧ d.seq = .idle ∧
    step { midBurst with sched := [.hwReset] } = .next e ∧ e.seq = .idle ∧
    step (hostDue { fresh with seq := .halted, faultCode := 1 } (.writeReg 0x20 32 1)) = .next f ∧ f.seq = .idle :=
  ⟨_, _, _, _, _, _, rfl, by decide, rfl, rfl, by decide, rfl, by decide, rfl, by decide, rfl, by decide, rfl, by decide⟩

theorem witness_LineBufUnobservable :
    (lat panelReady (oks 35)).Latched ∧ (lat panelReady (oks 35)).lineBuf.length = 2 * (lat panelReady []).cfg.val.panelW ∧
    (List.replicate 8 (0xFF : Byte)).length = 2 * (lat panelReady []).cfg.val.panelW := by decide

theorem witness_PanelShowsFilledRectangle :
    (lat panelReady (oks 15)).Latched ∧ (lat panelReady (oks 15)).pstate = .ready ∧
    clip vectorConfig (2 : Half).toNat (2 : Half).toNat (9 : Half).toNat (9 : Half).toNat = some (2, 1) ∧
    (lat panelReady (oks 15)).FramesOk (11 + 2 * (2 * 1)) ∧ vectorConfig.opcCaset ≠ vectorConfig.opcRaset ∧
    vectorConfig.opcCaset ≠ vectorConfig.opcRamwr ∧ vectorConfig.opcRaset ≠ vectorConfig.opcRamwr ∧
    vectorConfig.xStart.toNat + vectorConfig.panelW ≤ 65536 ∧ vectorConfig.yStart.toNat + vectorConfig.panelH ≤ 65536 := by
  decide

theorem witness_ScriptLenConsumed :
    parseScript [1, 0xAB, 0x81, 7, 10, 9] = some ([⟨0xAB, [7], some 10⟩], [9]) ∧
    parseScript [1, 0xAB, 0x81, 7, 10] = some ([⟨0xAB, [7], some 10⟩], []) := by decide

theorem witness_ModesEquivalent : (lat panelReady [.ok, .err]).Latched ∧ (lat fresh [.never]).Latched := by decide

theorem witness_FillVariantsEquivalent :
    (lat panelReady (oks 20 ++ [.err])).Latched ∧
    (lat panelReady (oks 20 ++ [.err])).lineBuf.length = 2 * (lat panelReady []).cfg.val.panelW := by decide

theorem witness_AtomicStepsReachExec :
    (due panelReady ⟨0x111, 0, 0x00030004, 0x1234⟩ 35).Latched ∧ (due panelReady ⟨0x111, 0, 0x00030004, 0x1234⟩ 35).sched = [] ∧
    decode (due panelReady ⟨0x111, 0, 0x00030004, 0x1234⟩ 35).lreq = .ok (.fillRect .burst 0 0 4 3 0x1234) := by decide

theorem witness_RequestsEnd :
    (∀ op ∈ (lat { fresh with host := [.waitIdle] } (oks 40)).host, op.isWrite = false) ∧
    (lat panelReady (oks 40)).Latched ∧
    (lat panelReady (oks 40)).BusLive ((lat panelReady (oks 40)).start (plan (.setwin .burst 0 0 3 2) (lat panelReady (oks 40)))).work := by
  decide

/-- A state in the middle of a burst that meets the invariant. -/
theorem midBurst_inv : midBurst.Inv where
  memory := by decide
  memoryIn := by decide
  lineBuf := by decide
  window := by decide
  result := by decide
  halted := by decide
  faultCode := by decide
  faultOp := by decide
  quiet := by decide
  notBegun := by decide
  oneAgent := by decide
  doneLow := by decide
  burst := by
    intro src n i h
    have h1 : midBurst.dma = .active (.mem 0xFD) 3 1 := rfl
    have h2 : midBurst.cfg.val.hostMemSize = 0x100 := rfl
    rw [h1] at h
    cases h
    refine ⟨by decide, by decide, fun k hk => ?_⟩
    show 0xFD + k < midBurst.cfg.val.hostMemSize
    omega
  steps := by
    intro ops h op hop
    have h1 : midBurst.todo = some [] := rfl
    rw [h1] at h
    cases h
    cases hop

theorem witness_StepKeepsInv : midBurst.Inv ∧ ∃ t, step midBurst = .next t := ⟨midBurst_inv, _, rfl⟩

theorem witness_NoReadOutsideMemory : midBurst.Inv ∧ midBurst.nextRead = some 0xFE ∧
    State.nextRead { midBurst with dma := .active (.mem 0xFD) 3 2 } = some 0xFF := ⟨midBurst_inv, by decide⟩

end Sys2Proof.Tests
end

/-! ## Admitted configurations (00 R8) -/

namespace Sys2Proof.Machine

/-- What an admitted configuration satisfies, condition by condition. -/
theorem configAdmitted_iff (c : Config) :
    configAdmitted c = true ↔
      1 ≤ c.panelW ∧ c.panelW ≤ 65535 ∧ 1 ≤ c.panelH ∧ c.panelH ≤ 65535 ∧
        c.scripts ≠ [] ∧ (∀ sc ∈ c.scripts, scriptWellFormed sc = true) ∧
        c.fonts.length ≤ 256 ∧ (∀ f ∈ c.fonts, fontAdmitted f = true) ∧
        1 ≤ c.hostMemSize ∧ c.hostMemSize ≤ 2 ^ 32 ∧ c.blockBase.toNat % 64 = 0 := by
  simp [configAdmitted, and_assoc]

theorem fontAdmitted_iff (f : Font) : fontAdmitted f = true ↔ 1 ≤ f.width ∧ f.width ≤ 16 ∧ 1 ≤ f.height := by
  simp [fontAdmitted, and_assoc]

theorem powerOn_unadmitted {c : Config} (h : configAdmitted c = false) : powerOn c = .refused .configuration := by
  simp [powerOn, h]

/-- Every script of an admitted configuration parses (30 R123). -/
theorem parseScript_ne_none_of_admitted {c : Config} {sc : List Byte} (h : configAdmitted c = true)
    (hsc : sc ∈ c.scripts) : parseScript sc ≠ none := by
  obtain ⟨-, -, -, -, -, hall, -⟩ := (configAdmitted_iff c).1 h
  simpa [scriptWellFormed, Option.isSome_iff_ne_none] using hall sc hsc

theorem fontAdmitted_of_admitted {c : Config} {f : Font} (h : configAdmitted c = true) (hf : f ∈ c.fonts) :
    1 ≤ f.width ∧ f.width ≤ 16 ∧ 1 ≤ f.height := by
  obtain ⟨-, -, -, -, -, -, -, hall, -⟩ := (configAdmitted_iff c).1 h
  exact (fontAdmitted_iff f).1 (hall f hf)

/-- Settles O36: each condition of the list contradicts one of an admitted configuration's. -/
theorem unadmittedConfigurationRefused : Obligations.UnadmittedConfigurationRefused := by
  intro c
  refine ⟨powerOn_unadmitted, fun hbad => powerOn_unadmitted (Bool.eq_false_iff.2 fun hc => ?_)⟩
  obtain ⟨hw, hw', hh, hh', hscripts, -, -, -, hmem, -⟩ := (configAdmitted_iff c).1 hc
  rcases hbad with h | h | h | h | h | ⟨sc, hsc, h⟩ | ⟨f, hf, h⟩ | h
  · omega
  · omega
  · omega
  · omega
  · exact hscripts h
  · exact parseScript_ne_none_of_admitted hc hsc h
  · have hfont := fontAdmitted_of_admitted hc hf
    omega
  · omega

end Sys2Proof.Machine

/-! ## What the steps of a request may read and write (20 R75, R77; 42 R183; 43 R195) -/

namespace Sys2Proof.Machine

/-- Every entry of the step list is admissible. -/
abbrev StepsAdmissible (c : Config) (ops : List Micro) : Prop := ∀ op ∈ ops, op.Admissible c

/-- An index that names no font of the configuration gives the 1 by 1 font. -/
theorem font_admitted {c : Config} (h : configAdmitted c = true) (f : Nat) :
    1 ≤ (font c f).width ∧ (font c f).width ≤ 16 ∧ 1 ≤ (font c f).height := by
  unfold font
  cases hf : c.fonts[f]? with
  | none => decide
  | some g => exact fontAdmitted_of_admitted h (List.mem_of_getElem? hf)

/-- What is left of a rectangle after clipping lies on the panel (43 R191). -/
theorem clip_some {c : Config} {x y w h w' h' : Nat} (hclip : clip c x y w h = some (w', h')) :
    1 ≤ w' ∧ w' ≤ w ∧ x + w' ≤ c.panelW ∧ 1 ≤ h' ∧ h' ≤ h ∧ y + h' ≤ c.panelH := by
  unfold clip at hclip
  dsimp only at hclip
  split at hclip
  · cases hclip
  · split at hclip
    · cases hclip
    · cases hclip
      omega

/-- The window of a rectangle on the panel is inside the panel (42 R183). -/
theorem rectWindow_inPanel {c : Config} (hc : configAdmitted c = true) {x y w h : Nat} (hw : 1 ≤ w)
    (hx : x + w ≤ c.panelW) (hh : 1 ≤ h) (hy : y + h ≤ c.panelH) : (rectWindow x y w h).inPanel c = true := by
  obtain ⟨-, hpw, -, hph, -⟩ := (configAdmitted_iff c).1 hc
  have hx0 : x % 2 ^ 16 = x := Nat.mod_eq_of_lt (by omega)
  have hx1 : (x + w - 1) % 2 ^ 16 = x + w - 1 := Nat.mod_eq_of_lt (by omega)
  have hy0 : y % 2 ^ 16 = y := Nat.mod_eq_of_lt (by omega)
  have hy1 : (y + h - 1) % 2 ^ 16 = y + h - 1 := Nat.mod_eq_of_lt (by omega)
  simp only [Window.inPanel, rectWindow, BitVec.toNat_ofNat, hx0, hx1, hy0, hy1, Bool.and_eq_true, decide_eq_true_eq]
  omega

/-- A burst whose every byte lies in its source, in either mode (40 R146). -/
theorem burst_admissible {c : Config} {src : Src} {n : Nat} (mode : Mode) (h : ∀ k, k < n → src.InRange c k) :
    StepsAdmissible c (burst src n mode) := by
  unfold burst
  split
  · exact List.forall_mem_nil _
  · cases mode with
    | byte => simpa [StepsAdmissible, Micro.Admissible] using h
    | burst => exact List.forall_mem_singleton.2 ⟨by omega, h⟩

theorem burstBytes_admissible (c : Config) (l : List Byte) (mode : Mode) : StepsAdmissible c (burstBytes l mode) :=
  burst_admissible mode fun _ hk => hk

theorem command_admissible (c : Config) (opc : Byte) : StepsAdmissible c (command opc) := by
  simp [StepsAdmissible, command, txByte, Micro.Admissible, Src.InRange]

/-- A command with its argument burst. -/
theorem commandBurst_admissible (c : Config) (opc : Byte) (l : List Byte) (mode : Mode) :
    StepsAdmissible c (command opc ++ (.setDC true :: burstBytes l mode)) :=
  List.forall_mem_append.2
    ⟨command_admissible c opc, List.forall_mem_cons.2 ⟨trivial, burstBytes_admissible c l mode⟩⟩

theorem setWindowSteps_admissible {c : Config} {w : Window} (mode : Mode) (h : w.inPanel c = true) :
    StepsAdmissible c (setWindowSteps c w mode) := by
  have hcol := commandBurst_admissible c c.opcCaset (coordArgs w.x0 w.x1 c.xStart) mode
  have hrow := commandBurst_admissible c c.opcRaset (coordArgs w.y0 w.y1 c.yStart) mode
  have hend : StepsAdmissible c (command c.opcRamwr ++ [.setWindow w]) :=
    List.forall_mem_append.2 ⟨command_admissible c c.opcRamwr, List.forall_mem_singleton.2 h⟩
  have hall := List.forall_mem_append.2 ⟨List.forall_mem_append.2 ⟨hcol, hrow⟩, hend⟩
  simpa only [setWindowSteps, List.append_assoc] using hall

theorem pixelSteps_admissible (c : Config) (ps : List Half) (mode : Mode) : StepsAdmissible c (pixelSteps ps mode) :=
  List.forall_mem_flatMap.2 fun p _ => burstBytes_admissible c (px p) mode

theorem bracketed_admissible {c : Config} {ops : List Micro} (h : StepsAdmissible c ops) :
    StepsAdmissible c (bracketed ops) :=
  List.forall_mem_cons.2 ⟨trivial, List.forall_mem_append.2 ⟨h, List.forall_mem_singleton.2 trivial⟩⟩

/-- A glyph cell on the panel (43 R201). -/
theorem glyphSteps_admissible {c : Config} (hc : configAdmitted c = true) (t : Text) (ch : Byte) {x y : Nat}
    (hx : x + (font c t.font).width ≤ c.panelW) (hy : y + (font c t.font).height ≤ c.panelH) :
    StepsAdmissible c (glyphSteps c t ch x y) := by
  obtain ⟨hw, -, hh⟩ := font_admitted hc t.font
  exact List.forall_mem_append.2
    ⟨setWindowSteps_admissible t.mode (rectWindow_inPanel hc hw hx hh hy),
      List.forall_mem_cons.2 ⟨trivial, pixelSteps_admissible c _ t.mode⟩⟩

/-- The painting of a rectangle that clipping has left. -/
theorem paintSteps_admissible {c : Config} (hc : configAdmitted c = true) (mode : Mode) {x y w h w' h' : Nat}
    (hclip : clip c x y w h = some (w', h')) {before pixels : List Micro} (hb : StepsAdmissible c before)
    (hp : StepsAdmissible c pixels) : StepsAdmissible c (paintSteps c mode x y w' h' before pixels) := by
  obtain ⟨hw, -, hx, hh, -, hy⟩ := clip_some hclip
  exact bracketed_admissible <| List.forall_mem_append.2
    ⟨List.forall_mem_append.2 ⟨setWindowSteps_admissible mode (rectWindow_inPanel hc hw hx hh hy), hb⟩,
      List.forall_mem_cons.2 ⟨trivial, hp⟩⟩

theorem lineFill_admissible {c : Config} (color : Half) {w : Nat} (h : w ≤ c.panelW) :
    StepsAdmissible c (lineFill color w) := by
  refine List.forall_mem_flatMap.2 fun k hk => ?_
  have hkw : k < w := List.mem_range.1 hk
  have h0 : 2 * k < 2 * c.panelW := by omega
  have h1 : 2 * k + 1 < 2 * c.panelW := by omega
  exact List.forall_mem_cons.2 ⟨h0, List.forall_mem_singleton.2 h1⟩

theorem fillSteps_admissible {c : Config} (hc : configAdmitted c = true) (mode : Mode) (x y w h : Nat) (color : Half) :
    StepsAdmissible c (fillSteps c mode x y w h color) := by
  unfold fillSteps
  split
  · exact List.forall_mem_nil _
  · rename_i hclip
    exact paintSteps_admissible hc mode hclip (List.forall_mem_nil _) (pixelSteps_admissible c _ mode)

theorem fillFastSteps_admissible {c : Config} (hc : configAdmitted c = true) (mode : Mode) (x y w h : Nat)
    (color : Half) : StepsAdmissible c (fillFastSteps c mode x y w h color) := by
  unfold fillFastSteps
  split
  · exact List.forall_mem_nil _
  · rename_i w' h' hclip
    obtain ⟨-, -, hx, -⟩ := clip_some hclip
    have hline : StepsAdmissible c (burst .lineBuf (2 * w') mode) :=
      burst_admissible mode fun k hk => by
        show k < 2 * c.panelW
        omega
    refine paintSteps_admissible hc mode hclip (lineFill_admissible color (by omega)) ?_
    exact List.forall_mem_flatten.2 fun l hl => (List.eq_of_mem_replicate hl) ▸ hline

/-- `BufOK` keeps every byte of the buffer inside host memory (20 R77). -/
theorem bufOK_inRange {c : Config} {a n : Nat} (h : bufOK c a n = true) : ∀ k, k < n → (Src.mem a).InRange c k := by
  intro k hk
  simp only [bufOK, Bool.or_eq_true, beq_iff_eq, decide_eq_true_eq] at h
  show a + k < c.hostMemSize
  omega

/-- The visible part of an image lies in the image's buffer (43 R197, `crop`). -/
theorem bufOK_crop_inRange {c : Config} {a w h w' h' : Nat} (hbuf : bufOK c a (2 * w * h) = true) (hw : w' ≤ w)
    (hh : h' ≤ h) : ∀ k, k < 2 * w' * h' → (Src.crop a w w').InRange c k := by
  intro k hk
  have hw0 : 0 < w' := by
    rcases Nat.eq_zero_or_pos w' with h0 | h0
    · simp [h0] at hk
    · exact h0
  have hcol : k / 2 % w' < w' := Nat.mod_lt _ hw0
  have hrow : k / 2 / w' < h' := by
    rw [Nat.div_lt_iff_lt_mul hw0, Nat.div_lt_iff_lt_mul (by omega)]
    calc k < 2 * w' * h' := hk
      _ = h' * w' * 2 := by ring
  have hpixel : k / 2 / w' * w + w ≤ w * h := by
    calc k / 2 / w' * w + w = (k / 2 / w' + 1) * w := by ring
      _ ≤ h * w := Nat.mul_le_mul_right w (by omega)
      _ = w * h := Nat.mul_comm h w
  have hlast : 2 * (k / 2 / w' * w + k / 2 % w') + k % 2 < 2 * w * h := by
    rw [Nat.mul_assoc]
    omega
  have hin := bufOK_inRange hbuf _ hlast
  simpa only [Src.InRange, Nat.add_assoc] using hin

/-! The plans, request by request, from every state. -/

/-- A plan that raises a fault has no steps; one that does not has admissible ones only. -/
def Plan.Admissible (c : Config) (p : Plan) : Prop := ∀ ops, p = .ok ops → StepsAdmissible c ops

theorem Plan.admissible_ok {c : Config} {ops : List Micro} (h : StepsAdmissible c ops) :
    Plan.Admissible c (.ok ops) := by
  rintro _ ⟨⟩
  exact h

theorem Plan.admissible_error (c : Config) (f : FaultCause) : Plan.Admissible c (.error f) := by
  rintro _ ⟨⟩

theorem whenReady_admissible {c : Config} {p : Plan} (s : State) (h : p.Admissible c) :
    (s.whenReady p).Admissible c := by
  by_cases hr : s.pstate = .ready
  · rwa [whenReady_ready s p hr]
  · rw [whenReady_notReady s p hr]
    exact Plan.admissible_error c .notReady

theorem planWrdata_admissible (s : State) (mode : Mode) (addr len : Word) :
    (planWrdata mode addr len s).Admissible s.cfg.val := by
  unfold planWrdata
  split
  · rename_i hbuf
    exact Plan.admissible_ok (List.forall_mem_cons.2 ⟨trivial, burst_admissible mode (bufOK_inRange hbuf)⟩)
  · exact Plan.admissible_error _ _

theorem planSetwin_admissible (s : State) (mode : Mode) (x0 y0 x1 y1 : Half) :
    (planSetwin mode x0 y0 x1 y1 s).Admissible s.cfg.val := by
  refine whenReady_admissible s ?_
  split
  · rename_i hin
    exact Plan.admissible_ok (setWindowSteps_admissible mode hin)
  · exact Plan.admissible_error _ _

theorem entrySteps_admissible (c : Config) (mode : Mode) (e : ScriptEntry) : StepsAdmissible c (entrySteps mode e) := by
  unfold entrySteps
  refine List.forall_mem_append.2 ⟨List.forall_mem_append.2 ⟨command_admissible c e.opcode, ?_⟩, ?_⟩
  · split
    · exact List.forall_mem_nil _
    · exact List.forall_mem_cons.2 ⟨trivial, burstBytes_admissible c e.args mode⟩
  · split
    · exact List.forall_mem_singleton.2 trivial
    · exact List.forall_mem_nil _

theorem planInit_admissible (s : State) (mode : Mode) : (planInit mode s).Admissible s.cfg.val := by
  have hscripts : StepsAdmissible s.cfg.val (s.cfg.val.scripts.flatMap (scriptSteps mode)) :=
    List.forall_mem_flatMap.2 fun _ _ => List.forall_mem_flatMap.2 fun e _ => entrySteps_admissible _ mode e
  refine Plan.admissible_ok (bracketed_admissible ?_)
  simp only [resetPulse, List.cons_append, List.nil_append, List.forall_mem_cons, List.forall_mem_append]
  exact ⟨trivial, trivial, trivial, trivial, trivial, hscripts, trivial, by simp⟩

theorem planDrawPixel_admissible (s : State) (mode : Mode) (x y color : Half) :
    (planDrawPixel mode x y color s).Admissible s.cfg.val := by
  refine whenReady_admissible s ?_
  split
  · exact Plan.admissible_ok (List.forall_mem_nil _)
  · rename_i hon
    have hwin := rectWindow_inPanel s.cfg.property (x := x.toNat) (y := y.toNat) (Nat.le_refl 1) (by omega)
      (Nat.le_refl 1) (by omega)
    refine Plan.admissible_ok (bracketed_admissible (List.forall_mem_append.2 ⟨?_, ?_⟩))
    · simpa using setWindowSteps_admissible mode hwin
    · exact List.forall_mem_cons.2 ⟨trivial, burstBytes_admissible _ _ mode⟩

theorem planDrawImage_admissible (s : State) (mode : Mode) (x y w h : Half) (addr : Word) :
    (planDrawImage mode x y w h addr s).Admissible s.cfg.val := by
  refine whenReady_admissible s ?_
  split
  · exact Plan.admissible_ok (List.forall_mem_nil _)
  · rename_i w' h' hclip
    obtain ⟨-, hw, -, -, hh, -⟩ := clip_some hclip
    dsimp only
    split
    · exact Plan.admissible_ok (List.forall_mem_nil _)
    · split
      · exact Plan.admissible_error _ _
      · rename_i hbuf
        rw [Decidable.not_not] at hbuf
        refine Plan.admissible_ok (paintSteps_admissible s.cfg.property mode hclip (List.forall_mem_nil _) ?_)
        split
        · exact burst_admissible mode (bufOK_inRange hbuf)
        · exact burst_admissible mode (bufOK_crop_inRange hbuf hw hh)

theorem planWriteString_admissible (s : State) (mode : Mode) (f : Byte) (x y fg bg : Half) (addr : Word) :
    (planWriteString mode f x y fg bg addr s).Admissible s.cfg.val := by
  refine whenReady_admissible s ?_
  split
  · exact Plan.admissible_ok (List.forall_mem_singleton.2 trivial)
  · exact Plan.admissible_error _ _

/-- The result of COLOR565 has a zero high half (10 R42, 45 R240). -/
theorem planColor565_admissible (s : State) (mode : Mode) (r g b : Byte) :
    (planColor565 mode r g b s).Admissible s.cfg.val := by
  refine Plan.admissible_ok (List.forall_mem_singleton.2 ?_)
  show ((pack565 r g b).setWidth 32).extractLsb' 16 16 = 0
  ext i hi
  simp

/-- Whatever the request and the state, what the request's checks let through is admissible. -/
theorem plan_admissible (i : Instr) (s : State) : (plan i s).Admissible s.cfg.val := by
  cases i with
  | select m => exact Plan.admissible_ok (List.forall_mem_singleton.2 trivial)
  | unselect m => exact Plan.admissible_ok (List.forall_mem_singleton.2 trivial)
  | wrcmd m opc => exact Plan.admissible_ok (command_admissible _ opc)
  | wrdata m addr len => exact planWrdata_admissible s m addr len
  | setwin m x0 y0 x1 y1 => exact planSetwin_admissible s m x0 y0 x1 y1
  | init m => exact planInit_admissible s m
  | drawPixel m x y color => exact planDrawPixel_admissible s m x y color
  | fillRect m x y w h color =>
    exact whenReady_admissible s (Plan.admissible_ok (fillSteps_admissible s.cfg.property m _ _ _ _ color))
  | fillRectFast m x y w h color =>
    exact whenReady_admissible s (Plan.admissible_ok (fillFastSteps_admissible s.cfg.property m _ _ _ _ color))
  | drawImage m x y w h addr => exact planDrawImage_admissible s m x y w h addr
  | writeString m f x y fg bg addr => exact planWriteString_admissible s m f x y fg bg addr
  | fillScreen m color =>
    exact whenReady_admissible s (Plan.admissible_ok (fillSteps_admissible s.cfg.property m _ _ _ _ color))
  | fillScreenFast m color =>
    exact whenReady_admissible s (Plan.admissible_ok (fillFastSteps_admissible s.cfg.property m _ _ _ _ color))
  | invert m on => exact whenReady_admissible s (Plan.admissible_ok (bracketed_admissible (command_admissible _ _)))
  | setGamma m curve =>
    exact whenReady_admissible s
      (Plan.admissible_ok (bracketed_admissible (commandBurst_admissible _ _ [curve] m)))
  | color565 m r g b => exact planColor565_admissible s m r g b

end Sys2Proof.Machine

/-! ## What one step of the block makes of the step list (00 R12, 10 R48) -/

namespace Sys2Proof.Machine

/-- `op.Becomes c ops d tm`: taking the entry `op` of the step list puts `ops` in its place, and leaves the DMA engine at
`d` and the delay timer at `tm`. Only a burst and a delay start an agent, and only the string loops put entries in their
place. `seqStep_cases` says that the sequencer's step is this relation or fault entry. -/
inductive Micro.Becomes (c : Config) : Micro → List Micro → Dma → Timer → Prop where
  | done (op : Micro) : op.Becomes c [] .idle .idle
  | burst (src : Src) (n : Nat) : (Micro.dma src n).Becomes c [] (.active src n 0) .idle
  | delay (ms : Nat) : (Micro.delay ms).Becomes c [] .idle (.waiting ms)
  | scanOn {t : Text} {x y n : Nat} (h : t.addr + n < c.hostMemSize) :
      (Micro.strScan t x y n).Becomes c [.strScan t x y (n + 1)] .idle .idle
  | scanned {t : Text} {x y n : Nat} (h : t.addr + n < c.hostMemSize) :
      (Micro.strScan t x y n).Becomes c (bracketed [.strDraw t n 0 x y false]) .idle .idle
  | space {t : Text} {len i x y x' y' : Nat} {a a' : Bool} (h : i < len) :
      (Micro.strDraw t len i x y a).Becomes c [.strDraw t len (i + 1) x' y' a'] .idle .idle
  | cell {t : Text} {len i x y x' y' : Nat} {a : Bool} (ch : Byte) (h : i < len)
      (hx : x' + (font c t.font).width ≤ c.panelW) (hy : y' + (font c t.font).height ≤ c.panelH) :
      (Micro.strDraw t len i x y a).Becomes c
        (glyphSteps c t ch x' y' ++ [.strDraw t len (i + 1) (x' + (font c t.font).width) y' false]) .idle .idle

/-- One step of `StrLen` (43 R204). -/
theorem strScanStep_cases (s : State) (rest : List Micro) (t : Text) (x y n : Nat) :
    s.strScanStep rest t x y n = s.raise .buffer ∨
      ∃ ops, (Micro.strScan t x y n).Becomes s.cfg.val ops .idle .idle ∧
        s.strScanStep rest t x y n = { s with todo := some (ops ++ rest) } := by
  unfold State.strScanStep
  split
  · exact .inl rfl
  · have hin : t.addr + n < s.cfg.val.hostMemSize := by omega
    split
    · exact .inr ⟨_, .scanned hin, rfl⟩
    · exact .inr ⟨_, .scanOn hin, rfl⟩

/-- One turn of WRITE_STRING's loop (43 R200): the string ends, a space is skipped, or a cell on the panel is drawn. -/
theorem strDrawStep_cases (s : State) (rest : List Micro) (t : Text) (len i x y : Nat) (a : Bool) :
    ∃ ops, (Micro.strDraw t len i x y a).Becomes s.cfg.val ops .idle .idle ∧
      s.strDrawStep rest t len i x y a = { s with todo := some (ops ++ rest) } := by
  unfold State.strDrawStep
  dsimp only
  generalize hx' : (if decide (s.cfg.val.panelW < x + (font s.cfg.val t.font).width) = true then 0 else x) = x'
  generalize (if decide (s.cfg.val.panelW < x + (font s.cfg.val t.font).width) = true
    then y + (font s.cfg.val t.font).height else y) = y'
  generalize (a || decide (s.cfg.val.panelW < x + (font s.cfg.val t.font).width)) = a'
  split
  · exact ⟨_, .done _, rfl⟩
  · have hi : i < len := by omega
    split
    · exact ⟨_, .done _, rfl⟩
    · have hfits : x' + (font s.cfg.val t.font).width ≤ s.cfg.val.panelW := by
        simp only [decide_eq_true_eq] at hx'
        split at hx' <;> omega
      split
      · exact ⟨_, .done _, rfl⟩
      · split
        · exact ⟨_, .space (x' := x') (y' := y') (a' := a') hi, rfl⟩
        · exact ⟨_, .cell (y' := y') (Mem.read s.mem (t.addr + i)) hi hfits (by omega), by simp⟩

/-- Everything a step of the sequencer can do: fault entry, or what its entry becomes, in place of the entry. -/
theorem seqStep_cases (s : State) (op : Micro) (rest : List Micro) (hd : s.dma = .idle) (ht : s.timer = .idle) :
    (∃ (u : State) (c : FaultCause), u.cfg = s.cfg ∧ s.seqStep op rest = u.raise c) ∨
      ∃ ops, op.Becomes s.cfg.val ops (s.seqStep op rest).dma (s.seqStep op rest).timer ∧
        (s.seqStep op rest).todo = some (ops ++ rest) ∧ (s.seqStep op rest).cfg = s.cfg := by
  cases op with
  | tx src k =>
    rcases tx_cases { s with todo := some rest } (State.srcByte { s with todo := some rest } src k) id with
      ⟨-, h⟩ | ⟨-, h⟩ | ⟨-, h⟩
    · rw [show s.seqStep (.tx src k) rest = _ from h]
      exact .inr ⟨[], by simpa [hd, ht] using Micro.Becomes.done _, rfl, rfl⟩
    · exact .inl ⟨State.popFrame { s with todo := some rest }, .transport, rfl, h⟩
    · rw [show s.seqStep (.tx src k) rest = _ from h]
      exact .inr ⟨[], by simpa [hd, ht] using Micro.Becomes.done _, rfl, rfl⟩
  | dma src n => exact .inr ⟨[], by simpa [State.seqStep, ht] using .burst src n, rfl, rfl⟩
  | delay ms => exact .inr ⟨[], by simpa [State.seqStep, hd] using .delay ms, rfl, rfl⟩
  | strScan t x y n =>
    rcases strScanStep_cases { s with todo := some rest } rest t x y n with h | ⟨ops, hops, h⟩
    · exact .inl ⟨{ s with todo := some rest }, .buffer, rfl, h⟩
    · rw [show s.seqStep (.strScan t x y n) rest = _ from h]
      exact .inr ⟨ops, by simpa [hd, ht] using hops, rfl, rfl⟩
  | strDraw t len i x y a =>
    obtain ⟨ops, hops, h⟩ := strDrawStep_cases { s with todo := some rest } rest t len i x y a
    rw [show s.seqStep (.strDraw t len i x y a) rest = _ from h]
    exact .inr ⟨ops, by simpa [hd, ht] using hops, rfl, rfl⟩
  | _ => exact .inr ⟨[], by simpa [State.seqStep, hd, ht] using Micro.Becomes.done _, rfl, rfl⟩

end Sys2Proof.Machine

/-! ## Everything a step of the block can do to its agents and its step list (00 R12) -/

namespace Sys2Proof.Machine

/-- One step of the DMA engine (40 R147, R148): fault entry, the burst's end, its next byte, or a frame that hangs. -/
theorem dmaStep_cases (s : State) (src : Src) (n i : Nat) (hd : s.dma = .active src n i) :
    (∃ (u : State) (c : FaultCause), u.cfg = s.cfg ∧ s.dmaStep src n i = u.raise c) ∨
      (s.dmaStep src n i).cfg = s.cfg ∧ (s.dmaStep src n i).todo = s.todo ∧ (s.dmaStep src n i).timer = s.timer ∧
        ((s.dmaStep src n i).dma = .idle ∨ (i < n ∧ (s.dmaStep src n i).dma = .active src n (i + 1)) ∨
          ((s.dmaStep src n i).hung = true ∧ (s.dmaStep src n i).dma = .active src n i)) := by
  unfold State.dmaStep
  split
  · rename_i hin
    rcases tx_cases s (s.srcByte src i) (fun u => { u with dma := .active src n (i + 1) }) with
      ⟨-, h⟩ | ⟨-, h⟩ | ⟨-, h⟩
    · rw [h]
      exact .inr ⟨rfl, rfl, rfl, .inr (.inl ⟨hin, rfl⟩)⟩
    · exact .inl ⟨s.popFrame, .transport, rfl, h⟩
    · rw [h]
      exact .inr ⟨rfl, rfl, rfl, .inr (.inr ⟨rfl, hd⟩)⟩
  · exact .inr ⟨rfl, rfl, rfl, .inl rfl⟩

/-- What a block step makes of the step list and the two agents: the request is over, the DMA engine moves on, the
delay is over, or the first entry is taken. -/
inductive State.Moves (s t : State) : Prop where
  | ended (hseq : t.seq ≠ .exec) (htodo : t.todo = none) (hdma : t.dma = .idle)
  | dma {src : Src} {n i : Nat} (hd : s.dma = .active src n i) (htodo : t.todo = s.todo) (htimer : t.timer = s.timer)
      (hdma : t.dma = .idle ∨ (i < n ∧ t.dma = .active src n (i + 1)) ∨ (t.hung = true ∧ t.dma = .active src n i))
  | timer {ms : Nat} (hd : s.dma = .idle) (ht : s.timer = .waiting ms) (htodo : t.todo = s.todo) (hdma : t.dma = .idle)
      (htimer : t.timer = .idle)
  | entry {op : Micro} {rest ops : List Micro} (hd : s.dma = .idle) (ht : s.timer = .idle)
      (hl : s.todo = some (op :: rest)) (hops : op.Becomes s.cfg.val ops t.dma t.timer)
      (htodo : t.todo = some (ops ++ rest))

theorem State.Moves.of_raise {s u t : State} {c : FaultCause} (h : t = u.raise c) : s.Moves t := by
  subst h
  exact .ended (by simp) rfl rfl

theorem blockStep_moves (s : State) (h : s.canStep = true) : s.blockStep.cfg = s.cfg ∧ s.Moves s.blockStep := by
  rcases blockStep_cases s h with ⟨src, n, i, hd, hstep⟩ | ⟨hd, ⟨ms, ht⟩, hstep⟩ | ⟨hd, -, -, hstep⟩ |
    ⟨hd, ht, op, rest, hl, hstep⟩
  · rw [hstep]
    rcases dmaStep_cases s src n i hd with ⟨u, c, hcfg, hu⟩ | ⟨hcfg, htodo, htimer, hdma⟩
    · exact ⟨hu ▸ hcfg, .of_raise hu⟩
    · exact ⟨hcfg, .dma hd htodo htimer hdma⟩
  · rw [hstep]
    exact ⟨rfl, .timer hd ht rfl hd rfl⟩
  · rw [hstep]
    exact ⟨rfl, .ended (by simp) rfl hd⟩
  · rw [hstep]
    rcases seqStep_cases s op rest hd ht with ⟨u, c, hcfg, hu⟩ | ⟨ops, hops, htodo, hcfg⟩
    · exact ⟨hu ▸ hcfg, .of_raise hu⟩
    · exact ⟨hcfg, .entry hd ht hl hops htodo⟩

@[simp] theorem blockStep_cfg (s : State) : s.blockStep.cfg = s.cfg := by
  cases h : s.canStep with
  | false => rw [blockStep_stuck s h]
  | true => exact (blockStep_moves s h).1

/-! ### The block reads inside host memory only -/

/-- The burst in flight and the steps to come are admissible: the clauses `burst` and `steps` of the invariant. -/
structure State.Admissible (s : State) : Prop where
  burst : ∀ src n i, s.dma = .active src n i → 1 ≤ n ∧ i ≤ n ∧ ∀ k, k < n → src.InRange s.cfg.val k
  steps : ∀ ops, s.todo = some ops → StepsAdmissible s.cfg.val ops

theorem State.Inv.admissible {s : State} (h : s.Inv) : s.Admissible := ⟨h.burst, h.steps⟩

theorem Src.InRange.address_lt {c : Config} {src : Src} {k a : Nat} (h : src.InRange c k) (ha : src.address k = some a) :
    a < c.hostMemSize := by
  cases src with
  | bytes l => cases ha
  | lineBuf => cases ha
  | mem b =>
    cases ha
    exact h
  | crop b w w' =>
    cases ha
    exact h

theorem State.Admissible.nextRead_lt {s : State} (h : s.Admissible) {a : Nat} (ha : s.nextRead = some a) :
    a < s.cfg.val.hostMemSize := by
  unfold State.nextRead at ha
  split at ha
  · rename_i src n i hd
    obtain ⟨-, -, hin⟩ := h.burst src n i hd
    split at ha
    · exact (hin i ‹_›).address_lt ha
    · cases ha
  · split at ha
    · cases ha
    · split at ha
      · rename_i src k _ hl
        have hop : src.InRange s.cfg.val k := h.steps _ hl _ List.mem_cons_self
        exact hop.address_lt ha
      · rename_i t len i _ _ _ _ hl
        have hop : t.addr + len ≤ s.cfg.val.hostMemSize := h.steps _ hl _ List.mem_cons_self
        split at ha
        · cases ha
          omega
        · cases ha
      · cases ha

/-- What an admissible entry becomes is admissible. -/
theorem Micro.Becomes.admissible {c : Config} {op : Micro} {ops : List Micro} {d : Dma} {tm : Timer}
    (h : op.Becomes c ops d tm) (hc : configAdmitted c = true) (hop : op.Admissible c) :
    StepsAdmissible c ops ∧ ∀ src n i, d = .active src n i → 1 ≤ n ∧ i ≤ n ∧ ∀ k, k < n → src.InRange c k := by
  cases h with
  | done => exact ⟨List.forall_mem_nil _, nofun⟩
  | burst src n =>
    refine ⟨List.forall_mem_nil _, ?_⟩
    rintro _ _ _ ⟨⟩
    exact ⟨hop.1, Nat.zero_le n, hop.2⟩
  | delay => exact ⟨List.forall_mem_nil _, nofun⟩
  | scanOn => exact ⟨List.forall_mem_singleton.2 trivial, nofun⟩
  | scanned hin => exact ⟨bracketed_admissible (List.forall_mem_singleton.2 (Nat.le_of_lt hin)), nofun⟩
  | space => exact ⟨List.forall_mem_singleton.2 hop, nofun⟩
  | cell ch _ hx hy =>
    exact ⟨List.forall_mem_append.2 ⟨glyphSteps_admissible hc _ ch hx hy, List.forall_mem_singleton.2 hop⟩, nofun⟩

theorem State.Admissible.moves {s t : State} (h : s.Admissible) (hcfg : t.cfg = s.cfg) (hm : s.Moves t) :
    t.Admissible := by
  cases hm with
  | ended _ htodo hdma => exact ⟨by simp [hdma], by simp [htodo]⟩
  | dma hd htodo _ hdma =>
    obtain ⟨hn, hi, hin⟩ := h.burst _ _ _ hd
    refine ⟨?_, by simpa only [hcfg, htodo] using h.steps⟩
    intro src' n' i' hd'
    rw [hcfg]
    rcases hdma with hidle | ⟨hlt, hnext⟩ | ⟨-, hsame⟩
    · simp [hidle] at hd'
    · cases hnext.symm.trans hd'
      exact ⟨hn, hlt, hin⟩
    · cases hsame.symm.trans hd'
      exact ⟨hn, hi, hin⟩
  | timer _ _ htodo hdma _ => exact ⟨by simp [hdma], by simpa only [hcfg, htodo] using h.steps⟩
  | entry _ _ hl hops htodo =>
    obtain ⟨hop, hrest⟩ := List.forall_mem_cons.1 (h.steps _ hl)
    obtain ⟨hnew, hburst⟩ := hops.admissible s.cfg.property hop
    refine ⟨by simpa only [hcfg] using hburst, ?_⟩
    intro l hl'
    cases htodo.symm.trans hl'
    rw [hcfg]
    exact List.forall_mem_append.2 ⟨hnew, hrest⟩

theorem State.Admissible.blockStep {s : State} (h : s.Admissible) : s.blockStep.Admissible := by
  cases hcan : s.canStep with
  | false => rwa [blockStep_stuck s hcan]
  | true =>
    obtain ⟨hcfg, hm⟩ := blockStep_moves s hcan
    exact h.moves hcfg hm

/-- A request that starts with the DMA engine idle starts admissible (30 R114). -/
theorem start_admissible (i : Instr) {s : State} (hd : s.dma = .idle) : (s.start (plan i s)).Admissible := by
  cases hp : plan i s with
  | error c => exact ⟨nofun, nofun⟩
  | ok ops =>
    refine ⟨by simp [State.start, hd], ?_⟩
    rintro _ ⟨⟩
    exact plan_admissible i s ops hp

/-! ### The bound on the steps left is one (70 R299) -/

/-- The bound of a step list. -/
def stepsWork (c : Config) (ops : List Micro) : Nat := (ops.map (Micro.work c)).sum

@[simp] theorem stepsWork_nil (c : Config) : stepsWork c [] = 0 := rfl

@[simp] theorem stepsWork_cons (c : Config) (op : Micro) (ops : List Micro) :
    stepsWork c (op :: ops) = op.work c + stepsWork c ops := by
  simp [stepsWork]

@[simp] theorem stepsWork_append (c : Config) (ops ops' : List Micro) :
    stepsWork c (ops ++ ops') = stepsWork c ops + stepsWork c ops' := by
  simp [stepsWork]

theorem work_eq (s : State) : s.work = s.dma.work + s.timer.work + (stepsWork s.cfg.val (s.todo.getD []) + 1) := rfl

theorem stepsWork_burst_le (c : Config) (src : Src) (n : Nat) (mode : Mode) :
    stepsWork c (burst src n mode) ≤ n + 2 := by
  unfold burst
  split
  · simp
  · cases mode with
    | byte =>
      have hones : Micro.work c ∘ Micro.tx src = fun _ => 1 := rfl
      simp [stepsWork, hones]
    | burst => simp [Micro.work]

theorem stepsWork_setWindowSteps_le (c : Config) (w : Window) (mode : Mode) :
    stepsWork c (setWindowSteps c w mode) ≤ 21 := by
  have hcol := stepsWork_burst_le c (.bytes (coordArgs w.x0 w.x1 c.xStart)) 4 mode
  have hrow := stepsWork_burst_le c (.bytes (coordArgs w.y0 w.y1 c.yStart)) 4 mode
  have hlen : ∀ a b o, (coordArgs a b o).length = 4 := fun _ _ _ => rfl
  simp only [setWindowSteps, burstBytes, hlen, command, txByte, stepsWork_append, stepsWork_cons, stepsWork_nil,
    Micro.work]
  omega

theorem stepsWork_pixelSteps_le (c : Config) (ps : List Half) (mode : Mode) :
    stepsWork c (pixelSteps ps mode) ≤ 4 * ps.length := by
  induction ps with
  | nil => simp [pixelSteps]
  | cons p ps ih =>
    have hp := stepsWork_burst_le c (.bytes (px p)) 2 mode
    calc stepsWork c (pixelSteps (p :: ps) mode)
        = stepsWork c (burst (.bytes (px p)) 2 mode) + stepsWork c (pixelSteps ps mode) := stepsWork_append c _ _
      _ ≤ 4 * (ps.length + 1) := by omega

theorem length_glyphPixels (f : Font) (ch : Nat) (fg bg : Half) :
    (glyphPixels f ch fg bg).length = f.width * f.height := by
  simp [glyphPixels, Nat.mul_comm]

theorem stepsWork_glyphSteps_le (c : Config) (t : Text) (ch : Byte) (x y : Nat) :
    stepsWork c (glyphSteps c t ch x y) ≤ glyphWork c t := by
  have hwin := stepsWork_setWindowSteps_le c (rectWindow x y (font c t.font).width (font c t.font).height) t.mode
  have hpix := stepsWork_pixelSteps_le c (glyphPixels (font c t.font) ch.toNat t.fg t.bg) t.mode
  rw [length_glyphPixels] at hpix
  simp only [glyphSteps, glyphWork, stepsWork_append, stepsWork_cons, Micro.work]
  omega

/-- What an entry becomes has less work left than the entry. -/
theorem Micro.Becomes.work_lt {c : Config} {op : Micro} {ops : List Micro} {d : Dma} {tm : Timer}
    (h : op.Becomes c ops d tm) : d.work + tm.work + stepsWork c ops < op.work c := by
  cases h with
  | done => cases op <;> simp [Dma.work, Timer.work, Micro.work]
  | burst src n => simp [Dma.work, Timer.work, Micro.work]
  | delay ms => simp [Dma.work, Timer.work, Micro.work]
  | scanOn hin =>
    simp only [Dma.work, Timer.work, Micro.work, stepsWork_cons, stepsWork_nil]
    omega
  | @scanned t x y n hin =>
    have hcells : n * (glyphWork c t + 1) ≤ (c.hostMemSize - t.addr) * (glyphWork c t + 1) :=
      Nat.mul_le_mul_right _ (by omega)
    simp only [bracketed, Dma.work, Timer.work, Micro.work, stepsWork_append, stepsWork_cons, stepsWork_nil, Nat.sub_zero]
    omega
  | @space t len i x y _ _ _ _ hi =>
    obtain ⟨m, hm⟩ : ∃ m, len - i = m + 1 := ⟨len - i - 1, by omega⟩
    have hm' : len - (i + 1) = m := by omega
    simp only [Dma.work, Timer.work, Micro.work, stepsWork_cons, stepsWork_nil, hm, hm', Nat.succ_mul]
    omega
  | @cell t len i x y x' y' _ ch hi _ _ =>
    obtain ⟨m, hm⟩ : ∃ m, len - i = m + 1 := ⟨len - i - 1, by omega⟩
    have hm' : len - (i + 1) = m := by omega
    have hglyph := stepsWork_glyphSteps_le c t ch x' y'
    simp only [Dma.work, Timer.work, Micro.work, stepsWork_append, stepsWork_cons, stepsWork_nil, hm, hm', Nat.succ_mul]
    omega

/-- Each step takes the bound down, unless it was the block's last. -/
theorem work_blockStep_lt {s : State} (h : s.canStep = true) (h' : s.blockStep.canStep = true) :
    s.blockStep.work < s.work := by
  obtain ⟨hcfg, hm⟩ := blockStep_moves s h
  rw [work_eq, work_eq, hcfg]
  cases hm with
  | ended hseq => simp [canStep_of_not_exec _ hseq] at h'
  | dma hd htodo htimer hdma =>
    rcases hdma with hdma | ⟨hlt, hdma⟩ | ⟨hhung, -⟩
    · simp [hd, htodo, htimer, hdma, Dma.work]
    · simp only [hd, htodo, htimer, hdma, Dma.work]
      omega
    · simp [canStep_of_hung _ hhung] at h'
  | timer hd ht htodo hdma htimer => simp [hd, ht, htodo, hdma, htimer, Dma.work, Timer.work]
  | entry hd ht hl hops htodo =>
    have hlt := hops.work_lt
    simp only [hd, ht, hl, htodo, Option.getD_some, stepsWork_append, stepsWork_cons]
    omega

/-- As many steps as the bound says leave the block with no step (70 R299). -/
theorem runBlock_stuck_of_work_le {s : State} {n : Nat} (h : s.work ≤ n) : (State.runBlock n s).canStep = false := by
  induction n generalizing s with
  | zero =>
    rw [work_eq] at h
    omega
  | succ n ih =>
    cases hcan : s.canStep with
    | false => rwa [runBlock_stuck s _ hcan]
    | true =>
      rw [runBlock_succ]
      cases hnext : s.blockStep.canStep with
      | false => rwa [runBlock_stuck _ _ hnext]
      | true => exact ih (by have := work_blockStep_lt hcan hnext; omega)

/-- Any longer run is the run to the end. -/
theorem runBlock_eq_finish {s : State} {n : Nat} (h : s.work ≤ n) : State.runBlock n s = s.finish :=
  runBlock_mono s h (runBlock_stuck_of_work_le (Nat.le_refl s.work))

/-! ### The block does not read the schedule (log 1) -/

/-- The state with the turns `l` due. -/
def State.withSched (s : State) (l : List Turn) : State := { s with sched := l }

@[simp] theorem withSched_dma (s : State) (l : List Turn) : (s.withSched l).dma = s.dma := rfl
@[simp] theorem withSched_timer (s : State) (l : List Turn) : (s.withSched l).timer = s.timer := rfl
@[simp] theorem withSched_todo (s : State) (l : List Turn) : (s.withSched l).todo = s.todo := rfl
@[simp] theorem withSched_canStep (s : State) (l : List Turn) : (s.withSched l).canStep = s.canStep := rfl

theorem tx_withSched (s : State) (l : List Turn) (b : Byte) {f : State → State}
    (hf : ∀ u : State, f (u.withSched l) = (f u).withSched l) : (s.withSched l).tx b f = (s.tx b f).withSched l := by
  cases h : s.frame 0 with
  | ok =>
    rw [tx_ok s b f h, ← hf]
    exact tx_ok (s.withSched l) b f h
  | err =>
    rw [tx_err s b f h]
    exact tx_err (s.withSched l) b f h
  | never =>
    rw [tx_never s b f h]
    exact tx_never (s.withSched l) b f h

theorem strScanStep_withSched (s : State) (l : List Turn) (rest : List Micro) (t : Text) (x y n : Nat) :
    (s.withSched l).strScanStep rest t x y n = (s.strScanStep rest t x y n).withSched l := by
  simp only [State.strScanStep, apply_ite (State.withSched · l)]
  rfl

theorem strDrawStep_withSched (s : State) (l : List Turn) (rest : List Micro) (t : Text) (len i x y : Nat) (a : Bool) :
    (s.withSched l).strDrawStep rest t len i x y a = (s.strDrawStep rest t len i x y a).withSched l := by
  simp only [State.strDrawStep, apply_ite (State.withSched · l)]
  rfl

theorem seqStep_withSched (s : State) (l : List Turn) (op : Micro) (rest : List Micro) :
    (s.withSched l).seqStep op rest = (s.seqStep op rest).withSched l := by
  cases op with
  | tx src k => exact tx_withSched { s with todo := some rest } l _ fun _ => rfl
  | strScan t x y n => exact strScanStep_withSched { s with todo := some rest } l rest t x y n
  | strDraw t len i x y a => exact strDrawStep_withSched { s with todo := some rest } l rest t len i x y a
  | _ => rfl

theorem dmaStep_withSched (s : State) (l : List Turn) (src : Src) (n i : Nat) :
    (s.withSched l).dmaStep src n i = (s.dmaStep src n i).withSched l := by
  unfold State.dmaStep
  split
  · exact tx_withSched s l _ fun _ => rfl
  · rfl

theorem blockStep_withSched (s : State) (l : List Turn) : (s.withSched l).blockStep = s.blockStep.withSched l := by
  cases h : s.canStep with
  | false => rw [blockStep_stuck s h, blockStep_stuck (s.withSched l) h]
  | true =>
    rcases blockStep_cases s h with ⟨src, n, i, hd, hstep⟩ | ⟨hd, ⟨ms, ht⟩, hstep⟩ | ⟨hd, ht, hl, hstep⟩ |
      ⟨hd, ht, op, rest, hl, hstep⟩
    · rw [hstep, ← dmaStep_withSched]
      simp [State.blockStep, h, hd]
    · rw [hstep]
      simp only [State.blockStep, withSched_canStep, h, withSched_dma, hd, withSched_timer, ht]
      rfl
    · rw [hstep]
      simp only [State.blockStep, withSched_canStep, h, withSched_dma, hd, withSched_timer, ht, withSched_todo, hl]
      rfl
    · rw [hstep, ← seqStep_withSched]
      simp [State.blockStep, h, hd, ht, hl]

theorem start_plan_withSched (i : Instr) (s : State) (l : List Turn) :
    (s.withSched l).start (plan i (s.withSched l)) = (s.start (plan i s)).withSched l := by
  have hplan : plan i (s.withSched l) = plan i s := by cases i <;> rfl
  rw [hplan]
  cases plan i s <;> rfl

/-! ### A request one turn at a time (00 R12, 30 R114) -/

/-- While `SEQ = EXEC` the request has begun. -/
abbrev State.Begun (s : State) : Prop := s.seq = .exec → s.todo ≠ none

theorem State.Begun.blockStep {s : State} (h : s.Begun) : s.blockStep.Begun := by
  cases hcan : s.canStep with
  | false => rwa [blockStep_stuck s hcan]
  | true =>
    have htodo : s.todo ≠ none := by
      intro hnone
      simp [State.canStep, hnone] at hcan
    intro hseq
    cases (blockStep_moves s hcan).2 with
    | ended hne => exact absurd hseq hne
    | dma _ hsame => rwa [hsame]
    | timer _ _ hsame => rwa [hsame]
    | entry _ _ _ _ hnew => simp [hnew]

theorem start_begun (s : State) (p : Plan) : (s.start p).Begun := by
  cases p with
  | error c => exact nofun
  | ok ops => exact fun _ => nofun

/-- Once begun and admissible, a turn of the block is one atomic step, never a fault of the machine. -/
theorem blockTurn_eq_blockStep {s : State} (hb : s.Begun) (ha : s.Admissible) : blockTurn s = .next s.blockStep := by
  unfold blockTurn
  split
  · rename_i hrun
    rw [if_neg (hb hrun.1)]
    split
    · rename_i a hread
      rw [if_neg (Nat.not_le.2 (ha.nextRead_lt hread))]
    · rfl
  · rename_i hrun
    have hcan : s.canStep = false := by
      by_cases hseq : s.seq = .exec
      · exact canStep_of_hung s (by simpa [hseq] using hrun)
      · exact canStep_of_not_exec s hseq
    rw [blockStep_stuck s hcan]

theorem State.Admissible.withSched {s : State} (h : s.Admissible) (l : List Turn) : (s.withSched l).Admissible :=
  ⟨h.burst, h.steps⟩

theorem run_succ_of_step {s t : State} (h : step s = .next t) (k : Nat) : core.run (k + 1) s = core.run k t := by
  have hcore : core.step s = .next t := h
  simp [Host.Core.run, hcore]

/-- `k` turns of the block take its next `k` atomic steps. -/
theorem run_replicate_block {s : State} (k : Nat) (hb : s.Begun) (ha : s.Admissible) :
    core.run k (s.withSched (List.replicate k .block)) = .next ((State.runBlock k s).withSched []) := by
  induction k generalizing s with
  | zero => rfl
  | succ k ih =>
    have hstep : step (s.withSched (List.replicate (k + 1) .block)) =
        .next (s.blockStep.withSched (List.replicate k .block)) := by
      rw [← blockStep_withSched]
      exact blockTurn_eq_blockStep hb (ha.withSched _)
    rw [run_succ_of_step hstep, ih hb.blockStep ha.blockStep, runBlock_succ]

theorem runBlock_withSched (n : Nat) (s : State) (l : List Turn) :
    State.runBlock n (s.withSched l) = (State.runBlock n s).withSched l := by
  induction n generalizing s with
  | zero => rfl
  | succ n ih => rw [runBlock_succ, runBlock_succ, blockStep_withSched, ih]

/-- The first turn of a latched request decodes it and starts its plan (30 R114). -/
theorem blockTurn_latched {s : State} {i : Instr} (hs : s.Latched) (hdec : decode s.lreq = .ok i) :
    blockTurn s = .next (s.start (plan i s)) := by
  obtain ⟨hseq, htodo, -, -, hhung⟩ := hs
  simp [blockTurn, hseq, htodo, hhung, State.begin, State.fetch, hdec]

/-- Settles O56: the first turn starts the plan, each later one takes one atomic step, and the run has stopped once the
bound `State.work` is spent. -/
theorem atomicStepsReachExec : Obligations.AtomicStepsReachExec := by
  intro i s hs hdec hsched
  have hdma : s.dma = .idle := hs.2.2.1
  refine ⟨(s.start (plan i s)).work + 1, fun k hk => ?_⟩
  obtain ⟨j, rfl⟩ : ∃ j, k = j + 1 := ⟨k - 1, by omega⟩
  have hfirst : step (s.withSched (List.replicate (j + 1) .block)) =
      .next ((s.start (plan i s)).withSched (List.replicate j .block)) := by
    rw [← start_plan_withSched]
    exact blockTurn_latched hs hdec
  have hempty : (s.start (plan i s)).withSched [] = s.start (plan i s) := by
    rw [← start_plan_withSched, State.withSched, ← hsched]
  have hrun := run_replicate_block j (start_begun s (plan i s)) (start_admissible i hdma)
  rw [← runBlock_withSched, hempty, runBlock_eq_finish (by omega)] at hrun
  exact (run_succ_of_step hfirst j).trans (hrun.trans (exec_eq_request s i).symm)

end Sys2Proof.Machine

/-! ## Every step keeps the invariant (20 R72, R75; 42 R183; 60 R259, R260, R267) -/

namespace Sys2Proof.Machine

/-! ### One rule for each way the state changes -/

/-- The invariant reads none of these fields. -/
theorem State.Inv.unread {s : State} (h : s.Inv) {req lreq : Desc} {pstate : PState} {cs dc rst : Bool}
    {trace : List Event} {seen : List Word} {host : List HostOp} {sched : List Turn} {bus : List BusOutcome}
    {draws : Nat} :
    State.Inv { s with
      req := req, lreq := lreq, pstate := pstate, cs := cs, dc := dc, rst := rst, trace := trace, seen := seen,
      host := host, sched := sched, bus := bus, draws := draws } :=
  { h with }

theorem State.Inv.withMem {s : State} (h : s.Inv) {m : List Host.Cell} (hwf : Mem.wf m = true)
    (hin : ∀ c ∈ m, c.1 < s.cfg.val.hostMemSize) : State.Inv { s with mem := m } :=
  { h with memory := hwf, memoryIn := hin }

theorem State.Inv.withWindow {s : State} (h : s.Inv) {w : Window} (hw : w.inPanel s.cfg.val = true) :
    State.Inv { s with window := w } :=
  { h with window := hw }

theorem State.Inv.withResult {s : State} (h : s.Inv) {v : Word} (hv : v.extractLsb' 16 16 = 0) :
    State.Inv { s with result := v } :=
  { h with result := hv }

theorem State.Inv.withLineByte {s : State} (h : s.Inv) (k : Nat) (b : Byte) :
    State.Inv { s with lineBuf := s.lineBuf.set k b } :=
  { h with lineBuf := by simpa using h.lineBuf }

/-- While `SEQ = EXEC` the step list can become any admissible one. -/
theorem State.Inv.withTodo {s : State} (h : s.Inv) (hexec : s.seq = .exec) {ops : List Micro}
    (hops : StepsAdmissible s.cfg.val ops) : State.Inv { s with todo := some ops } :=
  { h with
    quiet := fun hne => absurd hexec hne
    notBegun := nofun
    steps := by
      rintro _ ⟨⟩
      exact hops }

/-- A begun request may hang (60 R271). -/
theorem State.Inv.withHung {s : State} (h : s.Inv) (htodo : s.todo ≠ none) : State.Inv { s with hung := true } :=
  { h with notBegun := fun hnone => absurd hnone htodo }

/-- With the request begun and the DMA engine idle, the delay timer may start. -/
theorem State.Inv.withTimer {s : State} (h : s.Inv) (hd : s.dma = .idle) (htodo : s.todo ≠ none) (tm : Timer) :
    State.Inv { s with timer := tm } :=
  { h with
    notBegun := fun hnone => absurd hnone htodo
    oneAgent := .inl hd }

/-- A burst that reads what it may goes on while `DONE = 0` and the delay timer is idle (40 R146, R147). -/
theorem State.Inv.withBurst {s : State} (h : s.Inv) (ht : s.timer = .idle) (htodo : s.todo ≠ none) {src : Src}
    {n i : Nat} (hn : 1 ≤ n) (hi : i ≤ n) (hin : ∀ k, k < n → src.InRange s.cfg.val k) :
    State.Inv { s with done := false, dma := .active src n i } :=
  { h with
    notBegun := fun hnone => absurd hnone htodo
    oneAgent := .inr ht
    doneLow := fun _ => rfl
    burst := by
      rintro _ _ _ ⟨⟩
      exact ⟨hn, hi, hin⟩ }

/-- The completion notification of a burst (40 R147). -/
theorem State.Inv.burstDone {s : State} (h : s.Inv) : State.Inv { s with done := true, dma := .idle } :=
  { h with
    notBegun := fun hnone => ⟨rfl, (h.notBegun hnone).2⟩
    oneAgent := .inl rfl
    doneLow := fun hne => absurd rfl hne
    burst := nofun }

/-- The codes of the fault causes are 1 to 5 (60 R250). -/
theorem FaultCause.code_range (c : FaultCause) : c.code ≠ 0 ∧ c.code.toNat ≤ 5 := by
  cases c <;> decide

/-- Fault entry leaves the delay timer as it is (log 20), so it must be idle. -/
theorem State.Inv.raise {s : State} (h : s.Inv) (ht : s.timer = .idle) (c : FaultCause) : (s.raise c).Inv :=
  { h with
    halted := ⟨fun _ => c.code_range.1, fun _ => rfl⟩
    faultCode := c.code_range.2
    faultOp := fun h0 => absurd h0 c.code_range.1
    quiet := fun _ => rfl
    notBegun := fun _ => ⟨rfl, ht, rfl⟩
    oneAgent := .inl rfl
    doneLow := fun hne => absurd rfl hne
    burst := nofun
    steps := nofun }

theorem State.Inv.faultCode_zero {s : State} (h : s.Inv) (hne : s.seq ≠ .halted) : s.faultCode = 0 := by
  by_contra h0
  exact hne (h.halted.2 h0)

theorem State.Inv.complete {s : State} (h : s.Inv) (hexec : s.seq = .exec) (hd : s.dma = .idle) (ht : s.timer = .idle)
    (hhung : s.hung = false) : s.complete.Inv :=
  { h with
    halted := ⟨nofun, fun hne => absurd (h.faultCode_zero (by simp [hexec])) hne⟩
    quiet := fun _ => rfl
    notBegun := fun _ => ⟨hd, ht, hhung⟩
    steps := nofun }

theorem State.Inv.doorbell {s : State} (h : s.Inv) (hidle : s.seq = .idle) (v : Word) : (s.doorbell v).Inv :=
  { h with
    halted := ⟨nofun, fun hne => absurd (h.faultCode_zero (by simp [hidle])) hne⟩
    quiet := fun _ => rfl
    notBegun := fun _ => h.notBegun (h.quiet (by simp [hidle]))
    steps := nofun }

/-! ### Power-on and reset -/

theorem powerOn_inv (p : Platform) : (State.powerOn p).Inv where
  memory := rfl
  memoryIn := nofun
  lineBuf := by simp [State.powerOn, freshLineBuf]
  window := by
    obtain ⟨hw, -, hh, -⟩ := (configAdmitted_iff p.val).1 p.property
    simp [State.powerOn, Window.inPanel, Nat.lt_of_succ_le hw, Nat.lt_of_succ_le hh]
  result := by simp [State.powerOn]
  halted := ⟨nofun, fun hne => absurd rfl hne⟩
  faultCode := Nat.zero_le 5
  faultOp := fun _ => rfl
  quiet := fun _ => rfl
  notBegun := fun _ => ⟨rfl, rfl, rfl⟩
  oneAgent := .inl rfl
  doneLow := fun _ => rfl
  burst := nofun
  steps := nofun

/-- `Reset()` is power-on but for host memory and fields the invariant does not read (70 R281, R282). -/
theorem State.Inv.resetBlock {s : State} (h : s.Inv) : s.resetBlock.Inv :=
  ((powerOn_inv s.cfg).withMem h.memory h.memoryIn).unread

/-- Settles O58: the values of 10 R56 meet each clause; `WINDOW = 0` is inside an admitted panel. -/
theorem resetMeetsInv : Obligations.ResetMeetsInv :=
  ⟨powerOn_inv, powerOn_inv suppliedPlatform⟩

/-! ### The block -/

/-- A frame keeps the invariant when what follows a completed one does (40 R141). -/
theorem State.Inv.tx {s : State} (h : s.Inv) (ht : s.timer = .idle) (htodo : s.todo ≠ none) (b : Byte)
    {f : State → State} (hok : ∀ u : State, u = s.popFrame.emit (.byte s.cs s.dc b) → u.Inv → (f u).Inv) :
    (s.tx b f).Inv := by
  have hpop : s.popFrame.Inv := h.unread
  rcases tx_cases s b f with ⟨-, hs⟩ | ⟨-, hs⟩ | ⟨-, hs⟩
  · rw [hs]
    exact hok _ rfl hpop.unread
  · rw [hs]
    exact hpop.raise ht .transport
  · rw [hs]
    exact hpop.withHung htodo

theorem State.Inv.dmaStep {s : State} (h : s.Inv) (htodo : s.todo ≠ none) {src : Src} {n i : Nat}
    (hd : s.dma = .active src n i) : (s.dmaStep src n i).Inv := by
  obtain ⟨hn, -, hin⟩ := h.burst src n i hd
  have ht : s.timer = .idle := h.oneAgent.resolve_left (by simp [hd])
  have hdone : s.done = false := h.doneLow (by simp [hd])
  unfold State.dmaStep
  split
  · rename_i hlt
    refine h.tx ht htodo _ fun u hu hinv => ?_
    subst hu
    have hnext := hinv.withBurst ht htodo hn hlt hin
    rwa [← hdone] at hnext
  · exact h.burstDone

/-- A step of the sequencer, taken when the other agents are idle. -/
theorem State.Inv.seqStep {s : State} (h : s.Inv) (hexec : s.seq = .exec) (hd : s.dma = .idle) (ht : s.timer = .idle)
    {op : Micro} {rest : List Micro} (hl : s.todo = some (op :: rest)) : (s.seqStep op rest).Inv := by
  obtain ⟨hop, hrest⟩ := List.forall_mem_cons.1 (h.steps _ hl)
  have hi : State.Inv { s with todo := some rest } := h.withTodo hexec hrest
  have hstring : ∀ {ops : List Micro} {d : Dma} {tm : Timer}, op.Becomes s.cfg.val ops d tm →
      State.Inv { s with todo := some (ops ++ rest) } := fun hbecomes =>
    h.withTodo hexec (List.forall_mem_append.2 ⟨(hbecomes.admissible s.cfg.property hop).1, hrest⟩)
  cases op with
  | setCS l => exact hi.unread
  | setDC l => exact hi.unread
  | setRST l => exact hi.unread
  | setPState p => exact hi.unread
  | tx src k => exact hi.tx ht nofun _ fun _ _ hinv => hinv
  | dma src n => exact hi.withBurst ht nofun hop.1 (Nat.zero_le n) hop.2
  | delay ms => exact hi.unread.withTimer hd nofun (.waiting ms)
  | setWindow w => exact hi.withWindow hop
  | lineByte k b => exact hi.withLineByte k b
  | setResult v => exact hi.withResult hop
  | strScan t x y n =>
    rcases strScanStep_cases { s with todo := some rest } rest t x y n with hs | ⟨ops, hbecomes, hs⟩
    · rw [show s.seqStep (.strScan t x y n) rest = _ from hs]
      exact hi.raise ht .buffer
    · rw [show s.seqStep (.strScan t x y n) rest = _ from hs]
      exact hstring hbecomes
  | strDraw t len i x y a =>
    obtain ⟨ops, hbecomes, hs⟩ := strDrawStep_cases { s with todo := some rest } rest t len i x y a
    rw [show s.seqStep (.strDraw t len i x y a) rest = _ from hs]
    exact hstring hbecomes

/-- What a block with a step is not: idle, halted, hung, or waiting to decode (00 R12). -/
theorem canStep_running {s : State} (h : s.canStep = true) : s.seq = .exec ∧ s.hung = false ∧ s.todo ≠ none := by
  simp only [State.canStep, Bool.and_eq_true, beq_iff_eq, Bool.not_eq_true', Option.isSome_iff_ne_none] at h
  obtain ⟨⟨⟨hexec, hhung⟩, htodo⟩, -⟩ := h
  exact ⟨hexec, hhung, htodo⟩

theorem State.Inv.blockStep {s : State} (h : s.Inv) : s.blockStep.Inv := by
  cases hcan : s.canStep with
  | false => rwa [blockStep_stuck s hcan]
  | true =>
    obtain ⟨hexec, hhung, htodo⟩ := canStep_running hcan
    rcases blockStep_cases s hcan with ⟨src, n, i, hd, hs⟩ | ⟨hd, -, hs⟩ | ⟨hd, ht, -, hs⟩ |
      ⟨hd, ht, op, rest, hl, hs⟩
    · exact hs ▸ h.dmaStep htodo hd
    · exact hs ▸ h.withTimer hd htodo .idle
    · exact hs ▸ h.complete hexec hd ht hhung
    · exact hs ▸ h.seqStep hexec hd ht hl

theorem State.Inv.runBlock {s : State} (h : s.Inv) (n : Nat) : (State.runBlock n s).Inv := by
  induction n generalizing s with
  | zero => exact h
  | succ n ih =>
    rw [runBlock_succ]
    exact ih h.blockStep

/-- The start of a latched request (30 R114). -/
theorem State.Inv.start {s : State} (h : s.Inv) (hexec : s.seq = .exec) (htodo : s.todo = none) (i : Instr) :
    (s.start (plan i s)).Inv := by
  obtain ⟨-, ht, -⟩ := h.notBegun htodo
  cases hp : plan i s with
  | error c => exact h.raise ht c
  | ok ops => exact h.withTodo hexec (plan_admissible i s ops hp)

theorem State.Inv.begin {s : State} (h : s.Inv) (hexec : s.seq = .exec) (htodo : s.todo = none) : s.begin.Inv := by
  unfold State.begin
  split
  · exact h.raise (h.notBegun htodo).2.1 .illegalRequest
  · exact h.start hexec htodo _

theorem State.Inv.blockTurn {s t : State} (h : s.Inv) (hs : blockTurn s = .next t) : t.Inv := by
  rcases blockTurn_cases s hs with ⟨hexec, -, htodo, rfl⟩ | ⟨-, -, -, rfl⟩ | ⟨-, rfl⟩
  · exact h.begin hexec htodo
  · exact h.blockStep
  · exact h

theorem State.Inv.execLatched {s t : State} (h : s.Inv) (hexec : s.seq = .exec) (htodo : s.todo = none)
    (hs : execLatched s = .next t) : t.Inv := by
  unfold Machine.execLatched at hs
  split at hs
  · rw [exec_eq_request, request_eq] at hs
    cases hs
    exact (h.start hexec htodo _).runBlock _
  · cases hs
    exact h.raise (h.notBegun htodo).2.1 .illegalRequest

/-! ### The host -/

theorem Mem.writeBytes_below {m : List Host.Cell} {size : Nat} (hm : ∀ c ∈ m, c.1 < size) {a : Nat} {bs : List Byte}
    (hle : a + bs.length ≤ size) : ∀ c ∈ Mem.writeBytes m a bs, c.1 < size := by
  induction bs generalizing m a with
  | nil => exact hm
  | cons b bs ih =>
    rw [List.length_cons] at hle
    refine ih (m := Mem.write m a b) (a := a + 1) (fun c hc => ?_) (by omega)
    rcases Mem.mem_write hc with ha | hc
    · omega
    · exact hm c hc

theorem State.Inv.writeReg {s : State} (h : s.Inv) (off : Nat) (v : Word) : (s.writeReg off v).Inv := by
  rcases writeReg_cases s off v with hs | ⟨hidle, hs⟩ | ⟨-, d, hs⟩ | hs
  · rwa [hs]
  · exact hs ▸ h.doorbell hidle v
  · exact hs ▸ h.unread
  · exact hs ▸ h.resetBlock

theorem State.Inv.hostTurn {s t : State} (h : s.Inv) (hs : hostTurn s = .next t) : t.Inv := by
  have hrest : ∀ rest, State.Inv { s with host := rest } := fun _ => h.unread
  rcases hostTurn_cases s hs with rfl | ⟨rest, v, rfl⟩ | ⟨rest, off, v, -, rfl⟩ | ⟨rest, a, bs, hle, rfl⟩
  · exact h
  · exact h.unread
  · exact (hrest rest).writeReg off v
  · exact (hrest rest).withMem (Mem.wf_writeBytes a bs h.memory) (Mem.writeBytes_below h.memoryIn hle)

/-! ### Whoever takes the turn -/

theorem State.Inv.quietTurn {s t : State} (h : s.Inv) (hs : quietTurn s = .next t) : t.Inv := by
  unfold Machine.quietTurn at hs
  split at hs
  · rename_i hrun
    split at hs
    · exact h.execLatched hrun.1 ‹_› hs
    · split at hs
      · exact h.blockTurn hs
      · cases hs
        exact h.runBlock _
  · exact h.hostTurn hs

/-- Settles O59: by who is due; the block's turns by its atomic steps, the host's by what a host access can do. -/
theorem stepKeepsInv : Obligations.StepKeepsInv := by
  intro s t h hs
  have hrest : ∀ l, State.Inv { s with sched := l } := fun _ => h.unread
  cases hsched : s.sched with
  | nil =>
    rw [step_quiet s hsched] at hs
    exact h.quietTurn hs
  | cons who rest =>
    cases who with
    | block =>
      rw [step_block s rest hsched] at hs
      exact (hrest rest).blockTurn hs
    | host =>
      rw [step_host s rest hsched] at hs
      exact (hrest rest).hostTurn hs
    | hwReset =>
      rw [step_hwReset s rest hsched] at hs
      cases hs
      exact (hrest rest).resetBlock

end Sys2Proof.Machine

/-! ## The registers: power-on values, `STATUS`, and the host's accesses (10 R30 to R44, R56) -/

namespace Sys2Proof.Machine

/-- Settles O35: each value is read off the power-on state; the register views do not depend on the platform. -/
theorem powerOnValues : Obligations.PowerOnValues := by
  intro p
  have hstatus : (State.powerOn vectorPlatform).status = 0x00000050 := by decide
  have hwin0 : (State.powerOn vectorPlatform).win0 = 0 := by decide
  have hwin1 : (State.powerOn vectorPlatform).win1 = 0 := by decide
  exact ⟨rfl, rfl, rfl, rfl, rfl, rfl, rfl, rfl, rfl, rfl, rfl, rfl, rfl, rfl, rfl, hstatus, hwin0, hwin1,
    rfl, rfl, rfl, rfl, rfl, rfl, rfl, rfl⟩

/-- Bit `k` of `STATUS`, field by field from bit 0 (10 R34). -/
theorem status_getLsbD (s : State) (k : Nat) : s.status.getLsbD k =
    if k < 1 then s.seq == .exec
    else if k < 2 then s.seq == .halted
    else if k < 4 then s.pstate.code.getLsbD (k - 2)
    else if k < 5 then s.cs
    else if k < 6 then s.dc
    else if k < 7 then s.rst
    else if k < 8 then s.done
    else if k < 16 then s.faultCode.getLsbD (k - 8)
    else if k < 24 then s.faultOp.getLsbD (k - 16)
    else false := by
  unfold State.status
  simp only [BitVec.getLsbD_append, BitVec.getLsbD_ofBool, BitVec.ofNat_eq_ofNat, BitVec.getLsbD_zero]
  grind (splits := 20)

/-- Settles O37: the table of `STATUS` bit by bit, read at each field. -/
theorem statusFields : Obligations.StatusFields := by
  intro s
  have hpstate : s.status.extractLsb' 2 2 = s.pstate.code := by
    ext i hi
    rw [BitVec.getElem_extractLsb', status_getLsbD]
    grind
  refine ⟨?_, ?_, ?_, status_getLsbD s 4, status_getLsbD s 5, status_getLsbD s 6, status_getLsbD s 7, ?_, ?_, ?_⟩
  · rw [status_getLsbD]
    simp
  · rw [status_getLsbD]
    simp
  · rw [hpstate]
    cases s.pstate <;> rfl
  · ext i hi
    rw [BitVec.getElem_extractLsb', status_getLsbD]
    grind
  · ext i hi
    rw [BitVec.getElem_extractLsb', status_getLsbD]
    grind
  · ext i hi
    rw [BitVec.getElem_extractLsb', status_getLsbD]
    grind

/-- A 32-bit access at a multiple of 4 in the window has a meaning (20 R70, R71). -/
theorem windowOffset_base_add (c : Config) {off : Nat} (hlt : off < 0x40) (hdvd : off % 4 = 0) :
    windowOffset c (c.blockBase + BitVec.ofNat 32 off) 32 = .ok off := by
  have hoff : (c.blockBase + BitVec.ofNat 32 off - c.blockBase).toNat = off := by
    rw [BitVec.add_comm, BitVec.add_sub_cancel, BitVec.toNat_ofNat, Nat.mod_eq_of_lt (by omega)]
  simp only [windowOffset, hoff, hdvd, and_self, if_true, if_neg (Nat.not_le.2 hlt)]

/-- The host's write of the register at `off` (10 R31 to R33, R41). -/
theorem step_hostWrite {s : State} {rest : List Turn} {more : List HostOp} {off : Nat} {v : Word}
    (hsched : s.sched = .host :: rest) (hlt : off < 0x40) (hdvd : off % 4 = 0)
    (hhost : s.host = .writeReg (s.cfg.val.blockBase + BitVec.ofNat 32 off) 32 v :: more) :
    step s = if s.seq = .exec ∧ heldOffset off = true then .next { s with sched := rest }
      else .next (State.writeReg { s with sched := rest, host := more } off v) := by
  rw [step_host s rest hsched]
  simp [hostTurn, hostAccess, hhost, windowOffset_base_add _ hlt hdvd]

/-- A write that is not held takes effect. -/
theorem step_hostWrite_accepted {s : State} {rest : List Turn} {more : List HostOp} {off : Nat} {v : Word}
    (hsched : s.sched = .host :: rest) (hlt : off < 0x40) (hdvd : off % 4 = 0)
    (hfree : s.seq = .exec → heldOffset off = false)
    (hhost : s.host = .writeReg (s.cfg.val.blockBase + BitVec.ofNat 32 off) 32 v :: more) :
    step s = .next (State.writeReg { s with sched := rest, host := more } off v) := by
  rw [step_hostWrite hsched hlt hdvd hhost, if_neg]
  rintro ⟨hexec, hheld⟩
  simp [hfree hexec] at hheld

/-- Two halves as a word: the low one in bits 15..0, the high one above it (10 R43). -/
theorem append_eq_or_shiftLeft (lo hi : Half) : hi ++ lo = lo.setWidth 32 ||| (hi.setWidth 32 <<< 16) := by
  refine BitVec.eq_of_getLsbD_eq fun i hi' => ?_
  simp only [BitVec.getLsbD_append, BitVec.getLsbD_or, BitVec.getLsbD_shiftLeft, BitVec.getLsbD_setWidth]
  grind

/-- The host's read of the register at `off`, in every `SEQ` state (10 R31, 20 R83). -/
theorem step_hostRead {s : State} {rest : List Turn} {more : List HostOp} {off : Nat} (hsched : s.sched = .host :: rest)
    (hlt : off < 0x40) (hdvd : off % 4 = 0)
    (hhost : s.host = .readReg (s.cfg.val.blockBase + BitVec.ofNat 32 off) 32 :: more) :
    step s = .next { s with sched := rest, host := more, seen := s.seen ++ [s.readReg off] } := by
  rw [step_host s rest hsched]
  simp only [hostTurn, hostAccess, hhost, windowOffset_base_add _ hlt hdvd]
  rfl

/-- Settles O38: the registers in the order of the table; every other offset of the window reads 0. -/
theorem registerReads : Obligations.RegisterReads := by
  intro s rest more off hlt hdvd hsched hhost
  rw [step_hostRead hsched hlt hdvd hhost]
  congr 4
  split
  · rfl
  · rfl
  · rfl
  · rfl
  · rfl
  · rfl
  · exact append_eq_or_shiftLeft s.window.x0 s.window.y0
  · exact append_eq_or_shiftLeft s.window.x1 s.window.y1
  · simp_all [State.readReg]

/-! ### What a register write does, register by register -/

/-- `CTRL` bit 0 is the soft reset (10 R44). -/
theorem writeReg_softReset (s : State) {v : Word} (hv : v.getLsbD 0 = true) :
    s.writeReg 0x20 v = s.resetBlock := by
  simp [State.writeReg, hv]

/-- Unless the block is idle, a write to any register but `CTRL` does nothing (10 R33, R41). -/
theorem writeReg_of_not_idle {s : State} {off : Nat} (v : Word) (hseq : s.seq ≠ .idle) (hctrl : off ≠ 0x20) :
    s.writeReg off v = s := by
  simp [State.writeReg, hseq, hctrl]

/-- The registers past `REQ_W3` but `CTRL` are read-only or reserved (10 R30, R41). -/
theorem writeReg_readOnly (s : State) {off : Nat} (v : Word) (hro : 0x10 ≤ off) (hctrl : off ≠ 0x20) :
    s.writeReg off v = s := by
  simp [State.writeReg, hctrl, show off ≠ 0x00 by omega, show off ≠ 0x04 by omega, show off ≠ 0x08 by omega,
    show off ≠ 0x0C by omega]

/-- A write that changes `SEQ` is a doorbell or a soft reset (10 R46). -/
theorem writeReg_seq_ne {s : State} {off : Nat} {v : Word} (hne : (s.writeReg off v).seq ≠ s.seq) :
    (off = 0x00 ∧ s.seq = .idle ∧ s.writeReg off v = s.doorbell v) ∨
      (off = 0x20 ∧ v.getLsbD 0 = true ∧ s.writeReg off v = s.resetBlock) := by
  unfold State.writeReg at hne ⊢
  split at hne
  · rename_i hctrl
    split at hne
    · rename_i hv
      exact .inr ⟨hctrl, hv, by rw [if_pos hctrl, if_pos hv]⟩
    · exact absurd rfl hne
  · rename_i hctrl
    split at hne
    · exact absurd rfl hne
    · rename_i hidle
      split at hne
      · rename_i hdoor
        exact .inl ⟨hdoor, not_not.1 hidle, by rw [if_neg hctrl, if_neg hidle, if_pos hdoor]⟩
      · split at hne
        · exact absurd rfl hne
        · split at hne
          · exact absurd rfl hne
          · split at hne <;> exact absurd rfl hne

/-- Settles O39: an idle block holds nothing, and each word of `REQ` has its own offset. -/
theorem hostWritesWhileIdle : Obligations.HostWritesWhileIdle := by
  intro s rest more v hidle hsched
  have hfree : ∀ off, s.seq = .exec → heldOffset off = false := by simp [hidle]
  refine ⟨fun hhost => ?_, fun hhost => ?_, fun hhost => ?_, fun hhost => ?_⟩
  · rw [step_hostWrite_accepted (off := 0x00) hsched (by decide) rfl (hfree _) (by simpa using hhost)]
    simp [State.writeReg, hidle, State.doorbell]
  · rw [step_hostWrite_accepted (off := 0x04) hsched (by decide) rfl (hfree _) hhost]
    simp [State.writeReg, hidle]
  · rw [step_hostWrite_accepted (off := 0x08) hsched (by decide) rfl (hfree _) hhost]
    simp [State.writeReg, hidle]
  · rw [step_hostWrite_accepted (off := 0x0C) hsched (by decide) rfl (hfree _) hhost]
    simp [State.writeReg, hidle]

/-- Settles O40: the five offsets are the held ones. -/
theorem hostWritesHeldWhileBusy : Obligations.HostWritesHeldWhileBusy := by
  intro s rest more off v hexec hsched hoff hhost
  have hheld : heldOffset off = true := by simpa [heldOffset, or_assoc] using hoff
  rw [step_hostWrite hsched (by omega) (by omega) hhost, if_pos ⟨hexec, hheld⟩]

/-- Settles O41: a halted block holds nothing and takes only the soft reset. -/
theorem hostWritesWhileHalted : Obligations.HostWritesWhileHalted := by
  intro s rest more off v hhalted hsched hhost
  have hfree : s.seq = .exec → heldOffset off = false := by simp [hhalted]
  refine ⟨fun hoff => ?_, fun hoff hv => ?_⟩
  · rw [step_hostWrite_accepted hsched (by omega) (by omega) hfree hhost,
      writeReg_of_not_idle v (by simp [hhalted]) (by omega)]
  · subst hoff
    rw [step_hostWrite_accepted hsched (by decide) rfl hfree hhost, writeReg_softReset _ hv]

/-- Settles O42: the read-only and reserved offsets are none of the held ones. -/
theorem readOnlyWritesIgnored : Obligations.ReadOnlyWritesIgnored := by
  intro s rest more off v hsched hlt hdvd hro hctrl hhost
  have hfree : heldOffset off = false := by
    simp only [heldOffset, Bool.or_eq_false_iff, beq_eq_false_iff_ne]
    omega
  rw [step_hostWrite_accepted hsched hlt hdvd (fun _ => hfree) hhost, writeReg_readOnly _ v hro hctrl]

end Sys2Proof.Machine

/-! ## The transitions of `SEQ` (10 R46) -/

namespace Sys2Proof.Machine

/-! ### By a turn of the block -/

/-- A frame leaves `SEQ` as it is, or takes `TRANSPORT` (40 R141). -/
theorem tx_seq (s : State) (b : Byte) {f : State → State} (hf : ∀ u : State, (f u).seq = u.seq) :
    (s.tx b f).seq = s.seq ∨ s.tx b f = s.popFrame.raise .transport := by
  rcases tx_cases s b f with ⟨-, h⟩ | ⟨-, h⟩ | ⟨-, h⟩
  · exact .inl (by simp [h, hf])
  · exact .inr h
  · exact .inl (by simp [h])

/-- Fault entry from `s`, whatever frames were offered before it. -/
def State.RaisedFrom (s t : State) : Prop := ∃ bus draws c, t = State.raise { s with bus := bus, draws := draws } c

theorem dmaStep_seq (s : State) (src : Src) (n i : Nat) :
    (s.dmaStep src n i).seq = s.seq ∨ s.RaisedFrom (s.dmaStep src n i) := by
  unfold State.dmaStep
  split
  · rcases tx_seq s (s.srcByte src i) (f := fun u => { u with dma := .active src n (i + 1) }) fun _ => rfl with h | h
    · exact .inl h
    · exact .inr ⟨s.bus.tail, s.draws + 1, .transport, h⟩
  · exact .inl rfl

/-- Fault entry drops the step list, so what the list was does not matter. -/
theorem seqStep_seq (s : State) (op : Micro) (rest : List Micro) :
    (s.seqStep op rest).seq = s.seq ∨ s.RaisedFrom (s.seqStep op rest) := by
  cases op with
  | tx src k =>
    rcases tx_seq { s with todo := some rest } (s.srcByte src k) (f := id) fun _ => rfl with h | h
    · exact .inl h
    · exact .inr ⟨s.bus.tail, s.draws + 1, .transport, h⟩
  | strScan t x y n =>
    rcases strScanStep_cases { s with todo := some rest } rest t x y n with h | ⟨ops, -, h⟩
    · exact .inr ⟨s.bus, s.draws, .buffer, h⟩
    · rw [show s.seqStep (.strScan t x y n) rest = _ from h]
      exact .inl rfl
  | strDraw t len i x y a =>
    obtain ⟨ops, -, h⟩ := strDrawStep_cases { s with todo := some rest } rest t len i x y a
    rw [show s.seqStep (.strDraw t len i x y a) rest = _ from h]
    exact .inl rfl
  | _ => exact .inl rfl

theorem begin_seq (s : State) : s.begin.seq = s.seq ∨ s.RaisedFrom s.begin := by
  unfold State.begin
  split
  · exact .inr ⟨s.bus, s.draws, _, rfl⟩
  · cases plan _ s with
    | error c => exact .inr ⟨s.bus, s.draws, c, rfl⟩
    | ok ops => exact .inl rfl

/-- A turn of the block that changes `SEQ` is the completion step or fault entry. -/
theorem blockTurn_seq_ne {s t : State} (h : blockTurn s = .next t) (hne : t.seq ≠ s.seq) :
    s.seq = .exec ∧ s.hung = false ∧
      ((s.todo = some [] ∧ s.dma = .idle ∧ s.timer = .idle ∧ t = s.complete) ∨ s.RaisedFrom t) := by
  rcases blockTurn_cases s h with ⟨hexec, hhung, -, rfl⟩ | ⟨hexec, hhung, -, rfl⟩ | ⟨-, rfl⟩
  · exact ⟨hexec, hhung, .inr ((begin_seq s).resolve_left hne)⟩
  · refine ⟨hexec, hhung, ?_⟩
    cases hcan : s.canStep with
    | false => exact absurd (congrArg State.seq (blockStep_stuck s hcan)) hne
    | true =>
      rcases blockStep_cases s hcan with ⟨src, n, i, -, hs⟩ | ⟨-, -, hs⟩ | ⟨hd, ht, hl, hs⟩ | ⟨-, -, op, rest, -, hs⟩
      · rw [hs] at hne ⊢
        exact .inr ((dmaStep_seq s src n i).resolve_left hne)
      · exact absurd (congrArg State.seq hs) hne
      · exact .inl ⟨hl, hd, ht, hs⟩
      · rw [hs] at hne ⊢
        exact .inr ((seqStep_seq s op rest).resolve_left hne)
  · exact absurd rfl hne

/-! ### By a turn of the host -/

theorem addr_of_windowOffset_ok {c : Config} {addr : Word} {width off : Nat} (h : windowOffset c addr width = .ok off) :
    addr = c.blockBase + BitVec.ofNat 32 off := by
  obtain ⟨rfl, -⟩ := windowOffset_ok h
  rw [BitVec.ofNat_toNat, BitVec.setWidth_eq, BitVec.add_comm, BitVec.sub_add_cancel]

/-- A turn of the host that changes `SEQ` is a register write that is not held. -/
theorem hostTurn_seq_ne {s t : State} (h : hostTurn s = .next t) (hne : t.seq ≠ s.seq) :
    ∃ off v more, s.host = .writeReg (s.cfg.val.blockBase + BitVec.ofNat 32 off) 32 v :: more ∧
      ¬ (s.seq = .exec ∧ heldOffset off = true) ∧ t = State.writeReg { s with host := more } off v := by
  unfold hostTurn at h
  split at h
  · cases h
    exact absurd rfl hne
  · rename_i op more hhost
    unfold hostAccess at h
    cases op with
    | writeReg addr width v =>
      dsimp only at h
      split at h
      · cases h
      · rename_i off hoff
        split at h
        · cases h
          exact absurd rfl hne
        · rename_i hfree
          cases h
          obtain ⟨-, -, rfl, -⟩ := windowOffset_ok hoff
          exact ⟨off, v, more, by rw [hhost, addr_of_windowOffset_ok hoff], hfree, rfl⟩
    | readReg addr width =>
      dsimp only at h
      split at h <;> cases h
      exact absurd rfl hne
    | load a | store a bytes | waitIdle =>
      dsimp only at h
      split at h <;> cases h <;> exact absurd rfl hne

/-- Settles O50: by who is due; the block completes or faults, the host rings the doorbell or resets, the platform
resets. -/
theorem sequencerTransitions : Obligations.SequencerTransitions := by
  intro s t hsched hs hne
  cases hturns : s.sched with
  | nil => exact absurd hturns hsched
  | cons who rest =>
    cases who with
    | block =>
      rw [step_block s rest hturns] at hs
      obtain ⟨hexec, hhung, ⟨hl, hd, ht, rfl⟩ | ⟨bus, draws, c, rfl⟩⟩ := blockTurn_seq_ne hs hne
      · exact .inr (.inl ⟨hexec, rfl, rfl, hl, hd, ht, hhung, rfl⟩)
      · exact .inr (.inr (.inl ⟨hexec, rfl, rfl, c.code_range.1, rfl, bus, draws, c, rfl⟩))
    | host =>
      rw [step_host s rest hturns] at hs
      obtain ⟨off, v, more, hhost, hfree, rfl⟩ := hostTurn_seq_ne hs hne
      rcases writeReg_seq_ne hne with ⟨rfl, hidle, hw⟩ | ⟨rfl, hv, hw⟩
      · rw [hw]
        exact .inl ⟨hidle, rfl, rfl, rfl, v, more, rfl, by simpa using hhost, rfl⟩
      · have hhalted : s.seq = .halted := by
          cases hseq : s.seq with
          | idle => exact absurd (by rw [hw, hseq]; rfl) hne
          | exec => exact absurd ⟨hseq, rfl⟩ hfree
          | halted => rfl
        rw [hw]
        exact .inr (.inr (.inr (.inr ⟨hhalted, rfl, v, more, rfl, hv, hhost, rfl⟩)))
    | hwReset =>
      rw [step_hwReset s rest hturns] at hs
      cases hs
      exact .inr (.inr (.inr (.inl ⟨rfl, rfl, rfl⟩)))

end Sys2Proof.Machine

/-! ## `LINEBUF` is written before it is read (10 R52, 43 R195) -/

namespace Sys2Proof.Machine

/-! ### Step lists that read only what was written -/

/-- The step reads byte `k` of `LINEBUF`, itself or in the burst it starts. -/
def Micro.ReadsLine : Micro → Nat → Prop
  | .tx .lineBuf j, k => k = j
  | .dma .lineBuf n, k => k < n
  | _, _ => False

/-- The step writes byte `k` of `LINEBUF`. -/
def Micro.WritesLine : Micro → Nat → Prop
  | .lineByte j _, k => k = j
  | _, _ => False

/-- Every byte of `LINEBUF` a step of the list reads is one of `P`, or an earlier step of the list has written it. -/
def ReadsWritten : (Nat → Prop) → List Micro → Prop
  | _, [] => True
  | P, op :: ops => (∀ k, op.ReadsLine k → P k) ∧ ReadsWritten (fun k => P k ∨ op.WritesLine k) ops

theorem ReadsWritten.mono {P Q : Nat → Prop} {ops : List Micro} (h : ReadsWritten P ops) (hPQ : ∀ k, P k → Q k) :
    ReadsWritten Q ops := by
  induction ops generalizing P Q with
  | nil => trivial
  | cons op ops ih =>
    obtain ⟨hop, hops⟩ := h
    exact ⟨fun k hk => hPQ k (hop k hk), ih hops fun k => Or.imp_left (hPQ k)⟩

theorem ReadsWritten.append {P : Nat → Prop} {ops ops' : List Micro} (h : ReadsWritten P ops)
    (h' : ReadsWritten (fun k => P k ∨ ∃ op ∈ ops, op.WritesLine k) ops') : ReadsWritten P (ops ++ ops') := by
  induction ops generalizing P with
  | nil => exact h'.mono fun k => by simp
  | cons op ops ih =>
    obtain ⟨hop, hops⟩ := h
    exact ⟨hop, ih hops (h'.mono fun k => by simp [or_assoc])⟩

/-- Every byte of `LINEBUF` a step of the list reads is one of `P`. -/
abbrev ReadsIn (P : Nat → Prop) (ops : List Micro) : Prop := ∀ op ∈ ops, ∀ k, op.ReadsLine k → P k

theorem ReadsIn.readsWritten {P : Nat → Prop} {ops : List Micro} (h : ReadsIn P ops) : ReadsWritten P ops := by
  induction ops generalizing P with
  | nil => trivial
  | cons op ops ih =>
    obtain ⟨hop, hops⟩ := List.forall_mem_cons.1 h
    exact ⟨hop, ih fun op' hop' k hk => .inl (hops op' hop' k hk)⟩

/-- No step of the list reads `LINEBUF`. -/
abbrev LineFree (ops : List Micro) : Prop := ∀ op ∈ ops, ∀ k, ¬ op.ReadsLine k

theorem LineFree.readsWritten {ops : List Micro} (h : LineFree ops) (P : Nat → Prop) : ReadsWritten P ops :=
  ReadsIn.readsWritten fun op hop k hk => absurd hk (h op hop k)

/-! The step lists but the fast fills' do not read it. -/

theorem burst_lineFree {src : Src} (hsrc : src ≠ .lineBuf) (n : Nat) (mode : Mode) : LineFree (burst src n mode) := by
  have htx : ∀ j k, ¬ (Micro.tx src j).ReadsLine k := by cases src <;> simp_all [Micro.ReadsLine]
  have hdma : ∀ k, ¬ (Micro.dma src n).ReadsLine k := by cases src <;> simp_all [Micro.ReadsLine]
  unfold burst
  split
  · exact List.forall_mem_nil _
  · cases mode with
    | byte => exact List.forall_mem_map.2 fun j _ => htx j
    | burst => exact List.forall_mem_singleton.2 hdma

theorem burstBytes_lineFree (l : List Byte) (mode : Mode) : LineFree (burstBytes l mode) :=
  burst_lineFree (by simp) _ mode

theorem command_lineFree (opc : Byte) : LineFree (command opc) := by
  simp [LineFree, command, txByte, Micro.ReadsLine]

theorem commandBurst_lineFree (opc : Byte) (l : List Byte) (mode : Mode) :
    LineFree (command opc ++ (.setDC true :: burstBytes l mode)) :=
  List.forall_mem_append.2 ⟨command_lineFree opc, List.forall_mem_cons.2 ⟨nofun, burstBytes_lineFree l mode⟩⟩

theorem setWindowSteps_lineFree (c : Config) (w : Window) (mode : Mode) : LineFree (setWindowSteps c w mode) := by
  have hcol := commandBurst_lineFree c.opcCaset (coordArgs w.x0 w.x1 c.xStart) mode
  have hrow := commandBurst_lineFree c.opcRaset (coordArgs w.y0 w.y1 c.yStart) mode
  have hend : LineFree (command c.opcRamwr ++ [.setWindow w]) :=
    List.forall_mem_append.2 ⟨command_lineFree c.opcRamwr, List.forall_mem_singleton.2 nofun⟩
  have hall := List.forall_mem_append.2 ⟨List.forall_mem_append.2 ⟨hcol, hrow⟩, hend⟩
  simpa only [setWindowSteps, List.append_assoc] using hall

theorem pixelSteps_lineFree (ps : List Half) (mode : Mode) : LineFree (pixelSteps ps mode) :=
  List.forall_mem_flatMap.2 fun p _ => burstBytes_lineFree (px p) mode

theorem bracketed_lineFree {ops : List Micro} (h : LineFree ops) : LineFree (bracketed ops) :=
  List.forall_mem_cons.2 ⟨nofun, List.forall_mem_append.2 ⟨h, List.forall_mem_singleton.2 nofun⟩⟩

theorem glyphSteps_lineFree (c : Config) (t : Text) (ch : Byte) (x y : Nat) : LineFree (glyphSteps c t ch x y) :=
  List.forall_mem_append.2
    ⟨setWindowSteps_lineFree c _ t.mode, List.forall_mem_cons.2 ⟨nofun, pixelSteps_lineFree _ t.mode⟩⟩

theorem paintSteps_lineFree (c : Config) (mode : Mode) (x y w h : Nat) {pixels : List Micro} (hp : LineFree pixels) :
    LineFree (paintSteps c mode x y w h [] pixels) :=
  bracketed_lineFree <| List.forall_mem_append.2
    ⟨List.forall_mem_append.2 ⟨setWindowSteps_lineFree c _ mode, List.forall_mem_nil _⟩,
      List.forall_mem_cons.2 ⟨nofun, hp⟩⟩

theorem fillSteps_lineFree (c : Config) (mode : Mode) (x y w h : Nat) (color : Half) :
    LineFree (fillSteps c mode x y w h color) := by
  unfold fillSteps
  split
  · exact List.forall_mem_nil _
  · exact paintSteps_lineFree c mode x y _ _ (pixelSteps_lineFree _ mode)

theorem entrySteps_lineFree (mode : Mode) (e : ScriptEntry) : LineFree (entrySteps mode e) := by
  unfold entrySteps
  refine List.forall_mem_append.2 ⟨List.forall_mem_append.2 ⟨command_lineFree e.opcode, ?_⟩, ?_⟩
  · split
    · exact List.forall_mem_nil _
    · exact List.forall_mem_cons.2 ⟨nofun, burstBytes_lineFree e.args mode⟩
  · split
    · exact List.forall_mem_singleton.2 nofun
    · exact List.forall_mem_nil _

/-! The fast fills write what they read. -/

theorem lineFill_writes (color : Half) {w k : Nat} (hk : k < 2 * w) : ∃ op ∈ lineFill color w, op.WritesLine k := by
  have hrow : k / 2 < w := by omega
  rcases Nat.mod_two_eq_zero_or_one k with hpar | hpar
  · exact ⟨.lineByte (2 * (k / 2)) (hi color),
      List.mem_flatMap.2 ⟨k / 2, List.mem_range.2 hrow, by simp⟩, show k = 2 * (k / 2) by omega⟩
  · exact ⟨.lineByte (2 * (k / 2) + 1) (lo color),
      List.mem_flatMap.2 ⟨k / 2, List.mem_range.2 hrow, by simp⟩, show k = 2 * (k / 2) + 1 by omega⟩

theorem lineFill_lineFree (color : Half) (w : Nat) : LineFree (lineFill color w) :=
  List.forall_mem_flatMap.2 fun _ _ => List.forall_mem_cons.2 ⟨nofun, List.forall_mem_singleton.2 nofun⟩

/-- A burst from `LINEBUF` reads below its length. -/
theorem lineBurst_readsIn (n : Nat) (mode : Mode) : ReadsIn (· < n) (burst .lineBuf n mode) := by
  unfold burst
  split
  · exact List.forall_mem_nil _
  · cases mode with
    | byte =>
      refine List.forall_mem_map.2 fun j hj k hk => ?_
      have hkj : k = j := hk
      rw [hkj]
      exact List.mem_range.1 hj
    | burst => exact List.forall_mem_singleton.2 fun k hk => hk

theorem fillFastSteps_readsWritten (c : Config) (mode : Mode) (x y w h : Nat) (color : Half) (P : Nat → Prop) :
    ReadsWritten P (fillFastSteps c mode x y w h color) := by
  unfold fillFastSteps
  split
  · trivial
  · rename_i w' h' _
    have hbefore : LineFree (.setCS false :: (setWindowSteps c (rectWindow x y w' h') mode ++ lineFill color w')) :=
      List.forall_mem_cons.2
        ⟨nofun, List.forall_mem_append.2 ⟨setWindowSteps_lineFree c _ mode, lineFill_lineFree color w'⟩⟩
    have hlines : ReadsIn (· < 2 * w') (List.replicate h' (burst .lineBuf (2 * w') mode)).flatten :=
      List.forall_mem_flatten.2 fun l hl => (List.eq_of_mem_replicate hl) ▸ lineBurst_readsIn (2 * w') mode
    have hafter : ReadsIn (· < 2 * w')
        (.setDC true :: ((List.replicate h' (burst .lineBuf (2 * w') mode)).flatten ++ [.setCS true])) :=
      List.forall_mem_cons.2 ⟨nofun, List.forall_mem_append.2 ⟨hlines, List.forall_mem_singleton.2 nofun⟩⟩
    have hall := (hbefore.readsWritten P).append <| ReadsIn.readsWritten fun op hop k hk => Or.inr <| by
      obtain ⟨op', hmem, hwrites⟩ := lineFill_writes color (hafter op hop k hk)
      exact ⟨op', by simp [hmem], hwrites⟩
    simpa only [paintSteps, bracketed, List.append_assoc, List.cons_append] using hall

/-! The plans, request by request, from every state. -/

/-- What the request's checks let through reads of `LINEBUF` only what it has written. -/
def Plan.LineSafe (p : Plan) : Prop := ∀ ops, p = .ok ops → ∀ P, ReadsWritten P ops

theorem Plan.lineSafe_error (c : FaultCause) : Plan.LineSafe (.error c) := nofun

theorem LineFree.lineSafe {ops : List Micro} (h : LineFree ops) : Plan.LineSafe (.ok ops) := by
  rintro _ ⟨⟩
  exact h.readsWritten

theorem fillFastSteps_lineSafe (c : Config) (mode : Mode) (x y w h : Nat) (color : Half) :
    Plan.LineSafe (.ok (fillFastSteps c mode x y w h color)) := by
  rintro _ ⟨⟩
  exact fillFastSteps_readsWritten c mode x y w h color

theorem whenReady_lineSafe (s : State) {p : Plan} (h : p.LineSafe) : (s.whenReady p).LineSafe := by
  by_cases hr : s.pstate = .ready
  · rwa [whenReady_ready s p hr]
  · rw [whenReady_notReady s p hr]
    exact Plan.lineSafe_error .notReady

theorem planInit_lineSafe (s : State) (mode : Mode) : (planInit mode s).LineSafe := by
  have hscripts : LineFree (s.cfg.val.scripts.flatMap (scriptSteps mode)) :=
    List.forall_mem_flatMap.2 fun _ _ => List.forall_mem_flatMap.2 fun e _ => entrySteps_lineFree mode e
  refine (bracketed_lineFree ?_).lineSafe
  simp only [LineFree, resetPulse, List.cons_append, List.nil_append, List.forall_mem_cons, List.forall_mem_append]
  exact ⟨nofun, nofun, nofun, nofun, nofun, hscripts, nofun, List.forall_mem_nil _⟩

theorem planDrawImage_lineSafe (s : State) (mode : Mode) (x y w h : Half) (addr : Word) :
    (planDrawImage mode x y w h addr s).LineSafe := by
  refine whenReady_lineSafe s ?_
  split
  · exact LineFree.lineSafe (List.forall_mem_nil _)
  · dsimp only
    split
    · exact LineFree.lineSafe (List.forall_mem_nil _)
    · split
      · exact Plan.lineSafe_error .buffer
      · refine (paintSteps_lineFree _ mode _ _ _ _ ?_).lineSafe
        split
        · exact burst_lineFree (by simp) _ mode
        · exact burst_lineFree (by simp) _ mode

theorem plan_lineSafe (i : Instr) (s : State) : (plan i s).LineSafe := by
  cases i with
  | select m => exact LineFree.lineSafe (List.forall_mem_singleton.2 nofun)
  | unselect m => exact LineFree.lineSafe (List.forall_mem_singleton.2 nofun)
  | wrcmd m opc => exact (command_lineFree opc).lineSafe
  | wrdata m addr len =>
    show (planWrdata m addr len s).LineSafe
    unfold planWrdata
    split
    · exact LineFree.lineSafe (List.forall_mem_cons.2 ⟨nofun, burst_lineFree (by simp) _ m⟩)
    · exact Plan.lineSafe_error .buffer
  | setwin m x0 y0 x1 y1 =>
    refine whenReady_lineSafe s ?_
    split
    · exact (setWindowSteps_lineFree _ _ m).lineSafe
    · exact Plan.lineSafe_error .badOperand
  | init m => exact planInit_lineSafe s m
  | drawPixel m x y color =>
    refine whenReady_lineSafe s ?_
    split
    · exact LineFree.lineSafe (List.forall_mem_nil _)
    · exact (paintSteps_lineFree _ m _ _ _ _ (burstBytes_lineFree _ m)).lineSafe
  | fillRect m x y w h color => exact whenReady_lineSafe s (fillSteps_lineFree _ m _ _ _ _ color).lineSafe
  | fillRectFast m x y w h color => exact whenReady_lineSafe s (fillFastSteps_lineSafe _ m _ _ _ _ color)
  | drawImage m x y w h addr => exact planDrawImage_lineSafe s m x y w h addr
  | writeString m f x y fg bg addr =>
    refine whenReady_lineSafe s ?_
    split
    · exact LineFree.lineSafe (List.forall_mem_singleton.2 nofun)
    · exact Plan.lineSafe_error .badOperand
  | fillScreen m color => exact whenReady_lineSafe s (fillSteps_lineFree _ m _ _ _ _ color).lineSafe
  | fillScreenFast m color => exact whenReady_lineSafe s (fillFastSteps_lineSafe _ m _ _ _ _ color)
  | invert m on => exact whenReady_lineSafe s (bracketed_lineFree (command_lineFree _)).lineSafe
  | setGamma m curve => exact whenReady_lineSafe s (bracketed_lineFree (commandBurst_lineFree _ [curve] m)).lineSafe
  | color565 m r g b => exact LineFree.lineSafe (List.forall_mem_singleton.2 nofun)

/-! ### Two runs from states that differ in `LINEBUF` -/

/-- The state with `LINEBUF` replaced. -/
def State.withLineBuf (s : State) (l : List Byte) : State := { s with lineBuf := l }

@[simp] theorem withLineBuf_dma (s : State) (l : List Byte) : (s.withLineBuf l).dma = s.dma := rfl
@[simp] theorem withLineBuf_timer (s : State) (l : List Byte) : (s.withLineBuf l).timer = s.timer := rfl
@[simp] theorem withLineBuf_todo (s : State) (l : List Byte) : (s.withLineBuf l).todo = s.todo := rfl
@[simp] theorem withLineBuf_canStep (s : State) (l : List Byte) : (s.withLineBuf l).canStep = s.canStep := rfl
theorem withLineBuf_work (s : State) (l : List Byte) : (s.withLineBuf l).work = s.work := rfl

/-- Two line buffers hold the same byte `k`. -/
abbrev SameByte (l l' : List Byte) (k : Nat) : Prop := l.getD k 0 = l'.getD k 0

/-- What the step makes of a line buffer. -/
def Micro.onLine : Micro → List Byte → List Byte
  | .lineByte k b, l => l.set k b
  | _, l => l

theorem Micro.onLine_length (op : Micro) (l : List Byte) : (op.onLine l).length = l.length := by
  cases op with
  | lineByte k b => exact List.length_set
  | _ => rfl

theorem Micro.onLine_sameByte (op : Micro) {l l' : List Byte} (hlen : l.length = l'.length) {k : Nat}
    (h : SameByte l l' k ∨ op.WritesLine k) : SameByte (op.onLine l) (op.onLine l') k := by
  cases op with
  | lineByte j b =>
    show (l.set j b).getD k 0 = (l'.set j b).getD k 0
    by_cases hkj : j = k
    · subst hkj
      simp [List.getD_eq_getElem?_getD, List.getElem?_set, hlen]
    · have hsame : SameByte l l' k := h.resolve_right fun hk => hkj hk.symm
      simpa [SameByte, List.getD_eq_getElem?_getD, List.getElem?_set, hkj] using hsame
  | _ => exact h.resolve_right id

theorem srcByte_withLineBuf (s : State) (l : List Byte) (src : Src) (k : Nat)
    (h : src = .lineBuf → SameByte l s.lineBuf k) : (s.withLineBuf l).srcByte src k = s.srcByte src k := by
  cases src with
  | lineBuf => exact h rfl
  | _ => rfl

theorem tx_withLineBuf (s : State) (l : List Byte) (b : Byte) {f : State → State}
    (hf : ∀ u : State, f (u.withLineBuf l) = (f u).withLineBuf l) :
    (s.withLineBuf l).tx b f = (s.tx b f).withLineBuf l := by
  rcases tx_cases s b f with ⟨ho, h⟩ | ⟨ho, h⟩ | ⟨ho, h⟩
  · rw [h, ← hf]
    exact tx_ok (s.withLineBuf l) b f ho
  · rw [h]
    exact tx_err (s.withLineBuf l) b f ho
  · rw [h]
    exact tx_never (s.withLineBuf l) b f ho

theorem tx_lineBuf (s : State) (b : Byte) {f : State → State} (hf : ∀ u : State, (f u).lineBuf = u.lineBuf) :
    (s.tx b f).lineBuf = s.lineBuf := by
  rcases tx_cases s b f with ⟨-, h⟩ | ⟨-, h⟩ | ⟨-, h⟩ <;> simp [h, hf]

theorem dmaStep_withLineBuf (s : State) (l : List Byte) (src : Src) (n i : Nat)
    (h : src = .lineBuf → i < n → SameByte l s.lineBuf i) :
    (s.withLineBuf l).dmaStep src n i = (s.dmaStep src n i).withLineBuf l := by
  unfold State.dmaStep
  split
  · rename_i hin
    rw [srcByte_withLineBuf s l src i fun hsrc => h hsrc hin]
    exact tx_withLineBuf s l _ fun _ => rfl
  · rfl

theorem dmaStep_lineBuf (s : State) (src : Src) (n i : Nat) : (s.dmaStep src n i).lineBuf = s.lineBuf := by
  unfold State.dmaStep
  split
  · exact tx_lineBuf s _ fun _ => rfl
  · rfl

theorem strScanStep_withLineBuf (s : State) (l : List Byte) (rest : List Micro) (t : Text) (x y n : Nat) :
    (s.withLineBuf l).strScanStep rest t x y n = (s.strScanStep rest t x y n).withLineBuf l := by
  simp only [State.strScanStep, apply_ite (State.withLineBuf · l)]
  rfl

theorem strDrawStep_withLineBuf (s : State) (l : List Byte) (rest : List Micro) (t : Text) (len i x y : Nat)
    (a : Bool) :
    (s.withLineBuf l).strDrawStep rest t len i x y a = (s.strDrawStep rest t len i x y a).withLineBuf l := by
  simp only [State.strDrawStep, apply_ite (State.withLineBuf · l)]
  rfl

/-- A step of the sequencer whose reads agree does the same from both states. -/
theorem seqStep_withLineBuf (s : State) (l : List Byte) (op : Micro) (rest : List Micro)
    (h : ∀ k, op.ReadsLine k → SameByte l s.lineBuf k) :
    (s.withLineBuf l).seqStep op rest = (s.seqStep op rest).withLineBuf (op.onLine l) := by
  cases op with
  | tx src k =>
    have hbyte : (s.withLineBuf l).srcByte src k = s.srcByte src k :=
      srcByte_withLineBuf s l src k fun hsrc => h k (by subst hsrc; rfl)
    show State.tx { s.withLineBuf l with todo := some rest } ((s.withLineBuf l).srcByte src k) id = _
    rw [hbyte]
    exact tx_withLineBuf { s with todo := some rest } l _ fun _ => rfl
  | strScan t x y n => exact strScanStep_withLineBuf { s with todo := some rest } l rest t x y n
  | strDraw t len i x y a => exact strDrawStep_withLineBuf { s with todo := some rest } l rest t len i x y a
  | _ => rfl

theorem seqStep_lineBuf (s : State) (op : Micro) (rest : List Micro) :
    (s.seqStep op rest).lineBuf = op.onLine s.lineBuf := by
  cases op with
  | tx src k => exact tx_lineBuf { s with todo := some rest } _ fun _ => rfl
  | strScan t x y n =>
    rcases strScanStep_cases { s with todo := some rest } rest t x y n with h | ⟨ops, -, h⟩
    · rw [show s.seqStep (.strScan t x y n) rest = _ from h]
      rfl
    · rw [show s.seqStep (.strScan t x y n) rest = _ from h]
      rfl
  | strDraw t len i x y a =>
    obtain ⟨ops, -, h⟩ := strDrawStep_cases { s with todo := some rest } rest t len i x y a
    rw [show s.seqStep (.strDraw t len i x y a) rest = _ from h]
    rfl
  | _ => rfl

/-! ### The relation that every atomic step keeps -/

/-- Each byte of `LINEBUF` the running request has still to read is the same in `l`, or is written before. -/
structure State.LineAgrees (s : State) (l : List Byte) : Prop where
  length : l.length = s.lineBuf.length
  burst  : ∀ n i, s.dma = .active .lineBuf n i → ∀ k, k < n → SameByte l s.lineBuf k
  steps  : ∀ ops, s.todo = some ops → ReadsWritten (SameByte l s.lineBuf) ops

/-- The string loops put only steps in their place that do not read `LINEBUF`. -/
theorem Micro.Becomes.lineFree {c : Config} {op : Micro} {ops : List Micro} {d : Dma} {tm : Timer}
    (h : op.Becomes c ops d tm) : LineFree ops := by
  cases h with
  | done | burst | delay => exact List.forall_mem_nil _
  | scanOn | space => exact List.forall_mem_singleton.2 nofun
  | scanned => exact bracketed_lineFree (List.forall_mem_singleton.2 nofun)
  | cell ch =>
    exact List.forall_mem_append.2 ⟨glyphSteps_lineFree c _ ch _ _, List.forall_mem_singleton.2 nofun⟩

theorem Micro.Becomes.readsLine {c : Config} {op : Micro} {ops : List Micro} {d : Dma} {tm : Timer}
    (h : op.Becomes c ops d tm) {n i k : Nat} (hd : d = .active .lineBuf n i) (hk : k < n) : op.ReadsLine k := by
  subst hd
  cases h
  exact hk

/-- A step that keeps the bytes that agree, and after which the bytes its entry writes agree, keeps the relation. -/
theorem State.LineAgrees.moves {s t : State} {l l' : List Byte} (h : s.LineAgrees l) (hm : s.Moves t)
    (hlen : l'.length = t.lineBuf.length) (hkeep : ∀ k, SameByte l s.lineBuf k → SameByte l' t.lineBuf k)
    (hwrite : ∀ op rest, s.dma = .idle → s.timer = .idle → s.todo = some (op :: rest) →
      ∀ k, op.WritesLine k → SameByte l' t.lineBuf k) : t.LineAgrees l' := by
  refine ⟨hlen, ?_, ?_⟩
  · intro n i hd k hk
    cases hm with
    | ended _ _ hdma => simp [hdma] at hd
    | timer _ _ _ hdma _ => simp [hdma] at hd
    | dma hs _ _ hdma =>
      rcases hdma with hidle | ⟨-, hnext⟩ | ⟨-, hsame⟩
      · simp [hidle] at hd
      · cases hnext.symm.trans hd
        exact hkeep k (h.burst _ _ hs k hk)
      · cases hsame.symm.trans hd
        exact hkeep k (h.burst _ _ hs k hk)
    | entry _ _ hl hops _ => exact hkeep k ((h.steps _ hl).1 k (hops.readsLine hd hk))
  · intro ops' hl'
    cases hm with
    | ended _ htodo _ => simp [htodo] at hl'
    | dma _ htodo _ _ => exact (h.steps _ (htodo ▸ hl')).mono hkeep
    | timer _ _ htodo _ _ => exact (h.steps _ (htodo ▸ hl')).mono hkeep
    | entry hd ht hl hops htodo =>
      cases htodo.symm.trans hl'
      have hrest := (h.steps _ hl).2.mono fun k hk => hk.elim (hkeep k) (hwrite _ _ hd ht hl k)
      exact (hops.lineFree.readsWritten _).append (hrest.mono fun _ => Or.inl)

theorem State.LineAgrees.blockStep {s : State} {l : List Byte} (h : s.LineAgrees l) :
    ∃ l', (s.withLineBuf l).blockStep = s.blockStep.withLineBuf l' ∧ s.blockStep.LineAgrees l' := by
  cases hcan : s.canStep with
  | false =>
    rw [blockStep_stuck s hcan, blockStep_stuck (s.withLineBuf l) hcan]
    exact ⟨l, rfl, h⟩
  | true =>
    have hm := (blockStep_moves s hcan).2
    rcases blockStep_cases s hcan with ⟨src, n, i, hd, hs⟩ | ⟨hd, ⟨ms, ht⟩, hs⟩ | ⟨hd, ht, hl, hs⟩ |
      ⟨hd, ht, op, rest, hl, hs⟩
    · have hline : s.blockStep.lineBuf = s.lineBuf := by rw [hs, dmaStep_lineBuf]
      refine ⟨l, ?_, h.moves hm (hline ▸ h.length) (fun k hk => hline ▸ hk) (by simp [hd])⟩
      rw [hs, ← dmaStep_withLineBuf s l src n i fun hsrc hin => h.burst n i (hsrc ▸ hd) i hin]
      simp [State.blockStep, hcan, hd]
    · have hline : s.blockStep.lineBuf = s.lineBuf := by rw [hs]
      refine ⟨l, ?_, h.moves hm (hline ▸ h.length) (fun k hk => hline ▸ hk) (by simp [ht])⟩
      rw [hs]
      simp only [State.blockStep, withLineBuf_canStep, hcan, withLineBuf_dma, hd, withLineBuf_timer, ht]
      rfl
    · have hline : s.blockStep.lineBuf = s.lineBuf := by rw [hs]; rfl
      refine ⟨l, ?_, h.moves hm (hline ▸ h.length) (fun k hk => hline ▸ hk) (by simp [hl])⟩
      rw [hs]
      simp only [State.blockStep, withLineBuf_canStep, hcan, withLineBuf_dma, hd, withLineBuf_timer, ht,
        withLineBuf_todo, hl]
      rfl
    · have hline : s.blockStep.lineBuf = op.onLine s.lineBuf := by rw [hs, seqStep_lineBuf]
      refine ⟨op.onLine l, ?_, h.moves hm ?_ (fun k hk => ?_) (fun op' rest' _ _ hl' k hk => ?_)⟩
      · rw [hs, ← seqStep_withLineBuf s l op rest (h.steps _ hl).1]
        simp [State.blockStep, hcan, hd, ht, hl]
      · rw [hline, op.onLine_length, op.onLine_length, h.length]
      · rw [hline]
        exact op.onLine_sameByte h.length (.inl hk)
      · cases hl.symm.trans hl'
        rw [hline]
        exact op.onLine_sameByte h.length (.inr hk)

theorem State.LineAgrees.runBlock {s : State} {l : List Byte} (h : s.LineAgrees l) (n : Nat) :
    ∃ l', State.runBlock n (s.withLineBuf l) = (State.runBlock n s).withLineBuf l' := by
  induction n generalizing s l with
  | zero => exact ⟨l, rfl⟩
  | succ n ih =>
    obtain ⟨l₁, hstep, h₁⟩ := h.blockStep
    rw [runBlock_succ, runBlock_succ, hstep]
    exact ih h₁

theorem start_plan_withLineBuf (i : Instr) (s : State) (l : List Byte) :
    (s.withLineBuf l).start (plan i (s.withLineBuf l)) = (s.start (plan i s)).withLineBuf l := by
  have hplan : plan i (s.withLineBuf l) = plan i s := by cases i <;> rfl
  rw [hplan]
  cases plan i s <;> rfl

/-- Whatever `LINEBUF` holds when a request starts, the request reads none of it. -/
theorem start_lineAgrees (i : Instr) {s : State} (hd : s.dma = .idle) {l : List Byte}
    (hlen : l.length = s.lineBuf.length) : (s.start (plan i s)).LineAgrees l := by
  cases hp : plan i s with
  | error c => exact ⟨hlen, nofun, nofun⟩
  | ok ops =>
    refine ⟨hlen, by simp [State.start, hd], ?_⟩
    rintro _ ⟨⟩
    exact plan_lineSafe i s ops hp _

/-- Settles O51: the two runs keep step, since each byte of `LINEBUF` a request reads it has written before. -/
theorem lineBufUnobservable : Obligations.LineBufUnobservable := by
  intro i s l hs hlen hlen'
  obtain ⟨-, -, hd, -, -⟩ := hs
  have hagree : (s.start (plan i s)).LineAgrees l := start_lineAgrees i hd (hlen'.trans hlen.symm)
  obtain ⟨l', hrun⟩ := hagree.runBlock (s.start (plan i s)).work
  refine ⟨_, l', exec_eq_request s i, ?_⟩
  have hexec : exec i (s.withLineBuf l) = .next ((s.start (plan i s)).finish.withLineBuf l') := by
    rw [exec_eq_request, request_eq, start_plan_withLineBuf, State.finish, withLineBuf_work, hrun]
    rfl
  exact hexec

end Sys2Proof.Machine

/-! ## Host memory and the host's port (20 R71, R76) -/

namespace Sys2Proof.Machine

/-- A read after a store of several bytes: a byte of the store inside its range, and every other byte as before. -/
theorem Mem.read_writeBytes {m : List Host.Cell} (hm : Mem.wf m = true) (a : Nat) (bytes : List Byte) (x : Nat) :
    Mem.read (Mem.writeBytes m a bytes) x =
      if h : a ≤ x ∧ x < a + bytes.length then bytes[x - a]'(by omega) else Mem.read m x := by
  induction bytes generalizing m a with
  | nil => rw [dif_neg (by simp), Mem.writeBytes]
  | cons b bs ih =>
    rw [Mem.writeBytes, ih (Mem.wf_write a b hm), Mem.read_write hm]
    simp only [List.length_cons]
    rcases Nat.lt_trichotomy x a with hx | rfl | hx
    · rw [dif_neg (by omega), if_neg (by omega), dif_neg (by omega)]
    · rw [dif_neg (by omega), if_pos rfl, dif_pos (by omega)]
      simp
    · have hindex : x - a = (x - (a + 1)) + 1 := by omega
      rw [if_neg (by omega)]
      simp only [hindex, List.getElem_cons_succ]
      exact dite_congr (propext (by omega)) (fun _ => rfl) fun _ => rfl

/-- Settles O44: the store is one turn, and `Mem.read_writeBytes` says what it leaves. -/
theorem hostStoreWritesExactly : Obligations.HostStoreWritesExactly := by
  intro s rest more a bytes hm hsched hhost hin
  refine ⟨Mem.writeBytes s.mem a bytes, ?_, Mem.read_writeBytes hm a bytes⟩
  rw [step_host s rest hsched]
  simp [hostTurn, hostAccess, hhost, hin]

/-- An access inside the window of another width, or not at a multiple of 4, has no meaning (20 R71). -/
theorem windowOffset_base_add_odd (c : Config) {off width : Nat} (hlt : off < 0x40)
    (hodd : width ≠ 32 ∨ off % 4 ≠ 0) :
    windowOffset c (c.blockBase + BitVec.ofNat 32 off) width = .error (.registerAccessForm width off) := by
  have hoff : (c.blockBase + BitVec.ofNat 32 off - c.blockBase).toNat = off := by
    rw [BitVec.add_comm, BitVec.add_sub_cancel, BitVec.toNat_ofNat, Nat.mod_eq_of_lt (by omega)]
  simp only [windowOffset, hoff]
  rw [if_neg (by omega), if_neg (by omega)]

/-- Settles O43: neither a read nor a write of such a form has a meaning. -/
theorem oddAccessRefused : Obligations.OddAccessRefused := by
  intro s rest more off width v hsched hlt hodd hhost
  rw [step_host s rest hsched]
  rcases hhost with hhost | hhost
  · simp [hostTurn, hostAccess, hhost, windowOffset_base_add_odd _ hlt hodd]
  · simp [hostTurn, hostAccess, hhost, windowOffset_base_add_odd _ hlt hodd]

end Sys2Proof.Machine

/-! ## The block's reads of host memory (20 R75, R77) -/

namespace Sys2Proof.Machine

/-- A turn of an admissible block never stops the machine (20 R75). -/
theorem State.Admissible.blockTurn_next {s : State} (h : s.Admissible) : ∃ t, blockTurn s = .next t := by
  unfold blockTurn
  split
  · split
    · exact ⟨_, rfl⟩
    · split
      · rename_i a hread
        rw [if_neg (Nat.not_le.2 (h.nextRead_lt hread))]
        exact ⟨_, rfl⟩
      · exact ⟨_, rfl⟩
  · exact ⟨_, rfl⟩

theorem badRead_eq_false {s : State} (h : ∀ a, s.nextRead = some a → a < s.cfg.val.hostMemSize) :
    s.badRead = false := by
  unfold State.badRead
  split
  · rename_i a hread
    simpa using h a hread
  · rfl

theorem State.Admissible.badRead_eq_false {s : State} (h : s.Admissible) : s.badRead = false :=
  Machine.badRead_eq_false fun _ => h.nextRead_lt

/-- The faults of the host's turn are the host's own (20 R72). -/
theorem hostTurn_fault {s : State} {f : Fault} (h : hostTurn s = .fault f) : ∃ a, f = .hostAccessOutsideMemory a := by
  unfold hostTurn at h
  split at h
  · cases h
  · unfold hostAccess at h
    dsimp only at h
    split at h
    · split at h <;> cases h
    · split at h
      · cases h
      · split at h <;> cases h
    · split at h <;> cases h
      exact ⟨_, rfl⟩
    · split at h <;> cases h
      exact ⟨_, rfl⟩
    · split at h <;> cases h

theorem hostTurn_ne_blockFault (s : State) (a : Nat) : hostTurn s ≠ .fault (.blockReadOutsideMemory a) := by
  intro h
  obtain ⟨_, hf⟩ := hostTurn_fault h
  cases hf

theorem execLatched_next (s : State) : ∃ t, execLatched s = .next t := by
  unfold execLatched
  split
  · exact ⟨_, exec_eq_request s _⟩
  · exact ⟨_, rfl⟩

/-- With nobody due, an admissible block runs on to its end, and otherwise the turn is the host's. -/
theorem State.Admissible.quietTurn_cases {s : State} (h : s.Admissible) :
    (∃ t, quietTurn s = .next t) ∨ quietTurn s = hostTurn s := by
  unfold quietTurn
  split
  · split
    · exact .inl (execLatched_next s)
    · rw [if_neg (by simp [h.badRead_eq_false])]
      exact .inl ⟨_, rfl⟩
  · exact .inr rfl

/-- Settles O60: the invariant makes the burst in flight and the steps to come admissible, and what is admissible reads
inside host memory; the turns of the host and of the platform raise no fault of the block. -/
theorem noReadOutsideMemory : Obligations.NoReadOutsideMemory := by
  intro s a hinv
  have hadm := hinv.admissible
  cases hsched : s.sched with
  | nil =>
    rw [step_quiet s hsched]
    rcases hadm.quietTurn_cases with ⟨t, ht⟩ | ht
    · simp [ht]
    · rw [ht]
      exact hostTurn_ne_blockFault s a
  | cons who rest =>
    cases who with
    | block =>
      obtain ⟨t, ht⟩ := (hadm.withSched rest).blockTurn_next
      rw [step_block s rest hsched, show blockTurn { s with sched := rest } = _ from ht]
      nofun
    | host =>
      rw [step_host s rest hsched]
      exact hostTurn_ne_blockFault _ a
    | hwReset =>
      rw [step_hwReset s rest hsched]
      nofun

end Sys2Proof.Machine

/-! ## What the block leaves alone: the host's side, and the trace so far (20 R76, R86; 10 R31, R45; 70 R282) -/

namespace Sys2Proof.Machine

/-- What no step of the block writes: host memory, the configuration, `REQ`, `LREQ`, and the model's own fields of the
host and the schedule. -/
def State.hostSide (s : State) : List Host.Cell × Platform × Desc × Desc × List Word × List HostOp × List Turn :=
  (s.mem, s.cfg, s.req, s.lreq, s.seen, s.host, s.sched)

/-- From `s` the block alone has come to `t`: the host's side is as it was, and the trace has only grown. -/
structure State.BlockOnly (s t : State) : Prop where
  hostSide : t.hostSide = s.hostSide
  trace    : s.trace <+: t.trace

theorem State.BlockOnly.refl (s : State) : s.BlockOnly s := ⟨rfl, List.prefix_rfl⟩

theorem State.BlockOnly.trans {s t u : State} (h : s.BlockOnly t) (h' : t.BlockOnly u) : s.BlockOnly u :=
  ⟨h'.hostSide.trans h.hostSide, h.trace.trans h'.trace⟩

/-- A change of neither. -/
theorem State.BlockOnly.of_eq {s t : State} (hside : t.hostSide = s.hostSide) (htrace : t.trace = s.trace) :
    s.BlockOnly t :=
  ⟨hside, htrace ▸ List.prefix_rfl⟩

theorem blockOnly_emit (s : State) (e : Event) : s.BlockOnly (s.emit e) := ⟨rfl, List.prefix_append _ _⟩

theorem trace_setCS (s : State) (l : Bool) : s.trace <+: (s.setCS l).trace := by
  rw [setCS_trace]
  split
  · exact List.prefix_rfl
  · exact List.prefix_append _ _

theorem trace_setRST (s : State) (l : Bool) : s.trace <+: (s.setRST l).trace := by
  rw [setRST_trace]
  split
  · exact List.prefix_rfl
  · exact List.prefix_append _ _

theorem trace_resetBlock (s : State) : s.trace <+: s.resetBlock.trace :=
  (trace_setCS s true).trans (trace_setRST (s.setCS true) true)

/-- Fault entry (60 R255). -/
theorem blockOnly_raise (s : State) (c : FaultCause) : s.BlockOnly (s.raise c) := ⟨rfl, trace_setCS s true⟩

/-- One frame (40 R141). -/
theorem blockOnly_tx (s : State) (b : Byte) {f : State → State} (hf : ∀ u : State, u.BlockOnly (f u)) :
    s.BlockOnly (s.tx b f) := by
  have hpop : s.BlockOnly s.popFrame := .of_eq rfl rfl
  rcases tx_cases s b f with ⟨-, h⟩ | ⟨-, h⟩ | ⟨-, h⟩
  · rw [h]
    exact (hpop.trans (blockOnly_emit _ _)).trans (hf _)
  · rw [h]
    exact hpop.trans (blockOnly_raise _ _)
  · rw [h]
    exact .of_eq rfl rfl

theorem blockOnly_dmaStep (s : State) (src : Src) (n i : Nat) : s.BlockOnly (s.dmaStep src n i) := by
  unfold State.dmaStep
  split
  · exact blockOnly_tx s _ fun _ => .of_eq rfl rfl
  · exact .of_eq rfl rfl

theorem blockOnly_seqStep (s : State) (op : Micro) (rest : List Micro) : s.BlockOnly (s.seqStep op rest) := by
  have htaken : s.BlockOnly { s with todo := some rest } := .of_eq rfl rfl
  refine htaken.trans ?_
  cases op with
  | setCS l => exact ⟨rfl, trace_setCS _ l⟩
  | setRST l => exact ⟨rfl, trace_setRST _ l⟩
  | tx src k => exact blockOnly_tx { s with todo := some rest } _ State.BlockOnly.refl
  | delay ms => exact ⟨rfl, List.prefix_append _ _⟩
  | strScan t x y n =>
    rcases strScanStep_cases { s with todo := some rest } rest t x y n with h | ⟨ops, -, h⟩
    · rw [show s.seqStep (.strScan t x y n) rest = _ from h]
      exact blockOnly_raise _ _
    · rw [show s.seqStep (.strScan t x y n) rest = _ from h]
      exact .of_eq rfl rfl
  | strDraw t len i x y a =>
    obtain ⟨ops, -, h⟩ := strDrawStep_cases { s with todo := some rest } rest t len i x y a
    rw [show s.seqStep (.strDraw t len i x y a) rest = _ from h]
    exact .of_eq rfl rfl
  | _ => exact .of_eq rfl rfl

theorem blockOnly_blockStep (s : State) : s.BlockOnly s.blockStep := by
  cases hcan : s.canStep with
  | false =>
    rw [blockStep_stuck s hcan]
    exact .refl s
  | true =>
    rcases blockStep_cases s hcan with ⟨src, n, i, -, hs⟩ | ⟨-, -, hs⟩ | ⟨-, -, -, hs⟩ | ⟨-, -, op, rest, -, hs⟩
    · exact hs ▸ blockOnly_dmaStep s src n i
    · exact hs ▸ .of_eq rfl rfl
    · exact hs ▸ .of_eq rfl rfl
    · exact hs ▸ blockOnly_seqStep s op rest

theorem blockOnly_runBlock (n : Nat) (s : State) : s.BlockOnly (State.runBlock n s) := by
  induction n generalizing s with
  | zero => exact .refl s
  | succ n ih =>
    rw [runBlock_succ]
    exact (blockOnly_blockStep s).trans (ih _)

theorem blockOnly_start (s : State) (p : Plan) : s.BlockOnly (s.start p) := by
  cases p with
  | error c => exact blockOnly_raise s c
  | ok ops => exact .of_eq rfl rfl

/-- A whole request (30 R114). -/
theorem blockOnly_exec {i : Instr} {s t : State} (h : exec i s = .next t) : s.BlockOnly t := by
  rw [exec_eq_request, request_eq] at h
  cases h
  exact (blockOnly_start s _).trans (blockOnly_runBlock _ _)

/-- Settles O47: a request is a run of the block alone. -/
theorem requestsLeaveHostSideAlone : Obligations.RequestsLeaveHostSideAlone := by
  intro i s t h
  have hside := (blockOnly_exec h).hostSide
  simpa only [State.hostSide, Prod.mk.injEq] using hside

/-! ### The trace, whoever takes the turn -/

theorem blockOnly_begin (s : State) : s.BlockOnly s.begin := by
  unfold State.begin
  split
  · exact blockOnly_raise s _
  · exact blockOnly_start s _

theorem blockOnly_blockTurn {s t : State} (h : blockTurn s = .next t) : s.BlockOnly t := by
  rcases blockTurn_cases s h with ⟨-, -, -, rfl⟩ | ⟨-, -, -, rfl⟩ | ⟨-, rfl⟩
  · exact blockOnly_begin s
  · exact blockOnly_blockStep s
  · exact .refl _

theorem blockOnly_execLatched {s t : State} (h : execLatched s = .next t) : s.BlockOnly t := by
  unfold execLatched at h
  split at h
  · exact blockOnly_exec h
  · cases h
    exact blockOnly_raise s _

/-- A register write emits at most the events of a reset (70 R281). -/
theorem trace_writeReg (s : State) (off : Nat) (v : Word) : s.trace <+: (s.writeReg off v).trace := by
  rcases writeReg_cases s off v with h | ⟨-, h⟩ | ⟨-, d, h⟩ | h
  · rw [h]
  · rw [h]
    exact List.prefix_rfl
  · rw [h]
  · rw [h]
    exact trace_resetBlock s

theorem trace_hostTurn {s t : State} (h : hostTurn s = .next t) : s.trace <+: t.trace := by
  rcases hostTurn_cases s h with rfl | ⟨rest, v, rfl⟩ | ⟨rest, off, v, -, rfl⟩ | ⟨rest, a, bs, -, rfl⟩
  · exact List.prefix_rfl
  · exact List.prefix_rfl
  · exact trace_writeReg { s with host := rest } off v
  · exact List.prefix_rfl

theorem trace_quietTurn {s t : State} (h : quietTurn s = .next t) : s.trace <+: t.trace := by
  unfold quietTurn at h
  split at h
  · split at h
    · exact (blockOnly_execLatched h).trace
    · split at h
      · exact (blockOnly_blockTurn h).trace
      · cases h
        exact (blockOnly_runBlock _ s).trace
  · exact trace_hostTurn h

theorem trace_step {s t : State} (h : step s = .next t) : s.trace <+: t.trace := by
  cases hsched : s.sched with
  | nil =>
    rw [step_quiet s hsched] at h
    exact trace_quietTurn h
  | cons who rest =>
    cases who with
    | block =>
      rw [step_block s rest hsched] at h
      exact (blockOnly_blockTurn h).trace
    | host =>
      rw [step_host s rest hsched] at h
      have hgrow := trace_hostTurn h
      exact hgrow
    | hwReset =>
      rw [step_hwReset s rest hsched] at h
      cases h
      exact trace_resetBlock { s with sched := rest }

/-- Settles O49: the block's steps, the host's accesses and a reset each only append. -/
theorem traceOnlyGrows : Obligations.TraceOnlyGrows := by
  intro s t h
  obtain ⟨es, hes⟩ := trace_step h
  exact ⟨es, hes.symm⟩

end Sys2Proof.Machine

/-! ## Runs of step lists while the frames complete (30 R114; 40 R141, R146) -/

namespace Sys2Proof.Machine

/-! ### From one state of the block to another -/

/-- The block's own steps, with nobody between them, lead from `s` to `t`. -/
def State.Reaches (s t : State) : Prop := ∃ n, State.runBlock n s = t

theorem State.Reaches.trans {s t u : State} (h : s.Reaches t) (h' : t.Reaches u) : s.Reaches u := by
  obtain ⟨m, rfl⟩ := h
  obtain ⟨n, rfl⟩ := h'
  exact ⟨m + n, runBlock_add s m n⟩

theorem State.Reaches.of_blockStep {s t : State} (h : s.blockStep = t) : s.Reaches t :=
  ⟨1, by rw [runBlock_succ, runBlock_zero, h]⟩

/-- A state with no further step that is reached is where the run to the end stops. -/
theorem State.Reaches.finish_eq {s t : State} (h : s.Reaches t) (hstuck : t.canStep = false) : s.finish = t := by
  obtain ⟨n, rfl⟩ := h
  rw [← runBlock_eq_finish (Nat.le_max_right n s.work)]
  exact runBlock_mono s (Nat.le_max_left n s.work) hstuck

/-- A request runs, its frame does not hang, and the sequencer is the one agent that has a step. -/
abbrev State.Running (s : State) : Prop := s.seq = .exec ∧ s.dma = .idle ∧ s.timer = .idle ∧ s.hung = false

/-- The state with `ops` as the rest of the step list. -/
def State.withTodo (s : State) (ops : List Micro) : State := { s with todo := some ops }

@[simp] theorem withTodo_dma (s : State) (ops : List Micro) : (s.withTodo ops).dma = s.dma := rfl
@[simp] theorem withTodo_timer (s : State) (ops : List Micro) : (s.withTodo ops).timer = s.timer := rfl
@[simp] theorem withTodo_todo (s : State) (ops : List Micro) : (s.withTodo ops).todo = some ops := rfl

theorem canStep_of_reads {s : State} (hseq : s.seq = .exec) (hhung : s.hung = false) (htodo : s.todo ≠ none)
    (hread : ∀ a, s.nextRead = some a → a < s.cfg.val.hostMemSize) : s.canStep = true := by
  simp [State.canStep, hseq, hhung, badRead_eq_false hread, Option.isSome_iff_ne_none, htodo]

/-- The sequencer takes its next entry, if that is admissible. -/
theorem blockStep_withTodo_cons {s : State} (hs : s.Running) {op : Micro} (hop : op.Admissible s.cfg.val)
    (rest : List Micro) : (s.withTodo (op :: rest)).blockStep = s.seqStep op rest := by
  obtain ⟨hseq, hd, ht, hhung⟩ := hs
  have hadm : (s.withTodo [op]).Admissible := by
    refine ⟨by simp [hd], ?_⟩
    rintro _ ⟨⟩
    exact List.forall_mem_singleton.2 hop
  have hread : (s.withTodo (op :: rest)).nextRead = (s.withTodo [op]).nextRead := by cases op <;> rfl
  have hcan : (s.withTodo (op :: rest)).canStep = true :=
    canStep_of_reads hseq hhung nofun fun a ha => hadm.nextRead_lt (hread ▸ ha)
  simp only [State.blockStep, hcan, if_true, withTodo_dma, withTodo_timer, withTodo_todo, hd, ht]
  rfl

theorem blockStep_withTodo_nil {s : State} (hs : s.Running) : (s.withTodo []).blockStep = s.complete := by
  obtain ⟨hseq, hd, ht, hhung⟩ := hs
  have hread : (s.withTodo []).nextRead = none := by simp [State.nextRead, hd, ht]
  have hcan : (s.withTodo []).canStep = true := canStep_of_reads hseq hhung nofun (by simp [hread])
  simp only [State.blockStep, hcan, if_true, withTodo_dma, withTodo_timer, withTodo_todo, hd, ht]
  rfl

/-! ### What a step list makes of a state -/

/-- The step list `ops` takes `s` to `t`, whatever follows it in the list, and leaves the sequencer to go on. -/
structure State.Runs (s : State) (ops : List Micro) (t : State) : Prop where
  running : t.Running
  reaches : ∀ rest, (s.withTodo (ops ++ rest)).Reaches (t.withTodo rest)

theorem State.Runs.nil {s : State} (hs : s.Running) : s.Runs [] s := ⟨hs, fun _ => ⟨0, rfl⟩⟩

theorem State.Runs.append {s t u : State} {ops ops' : List Micro} (h : s.Runs ops t) (h' : t.Runs ops' u) :
    s.Runs (ops ++ ops') u := by
  refine ⟨h'.running, fun rest => ?_⟩
  rw [List.append_assoc]
  exact (h.reaches _).trans (h'.reaches rest)

theorem State.Runs.cons {s t u : State} {op : Micro} {ops : List Micro} (h : s.Runs [op] t) (h' : t.Runs ops u) :
    s.Runs (op :: ops) u :=
  h.append h'

/-- A step list that runs is the whole of its request: the completion step follows (30 R115). -/
theorem State.Runs.finish_eq {s t : State} {ops : List Micro} (h : s.Runs ops t) :
    (s.withTodo ops).finish = t.complete := by
  have hops := h.reaches []
  rw [List.append_nil] at hops
  exact (hops.trans (.of_blockStep (blockStep_withTodo_nil h.running))).finish_eq (canStep_complete t)

/-- One entry, by what the sequencer's step makes of the state. -/
theorem State.Runs.of_seqStep {s t : State} {op : Micro} (hs : s.Running) (hop : op.Admissible s.cfg.val)
    (ht : t.Running) (hstep : ∀ rest, s.seqStep op rest = t.withTodo rest) : s.Runs [op] t :=
  ⟨ht, fun rest => .of_blockStep ((blockStep_withTodo_cons hs hop rest).trans (hstep rest))⟩

theorem runs_setCS {s : State} (hs : s.Running) (l : Bool) : s.Runs [.setCS l] (s.setCS l) :=
  .of_seqStep hs trivial hs fun _ => rfl

theorem runs_setDC {s : State} (hs : s.Running) (l : Bool) : s.Runs [.setDC l] (s.setDC l) :=
  .of_seqStep hs trivial hs fun _ => rfl

theorem runs_setWindow {s : State} (hs : s.Running) {w : Window} (hw : w.inPanel s.cfg.val = true) :
    s.Runs [.setWindow w] { s with window := w } :=
  .of_seqStep hs hw hs fun _ => rfl

/-! ### Bytes and bursts -/

/-- `s` after the frames of the bytes `l` at the levels of the lines (40 R141). -/
def State.sent (s : State) (l : List Byte) : State :=
  { s with
    trace := s.trace ++ l.map (Event.byte s.cs s.dc)
    bus := s.bus.drop l.length
    draws := s.draws + l.length }

@[simp] theorem sent_nil (s : State) : s.sent [] = s := by simp [State.sent]

theorem sent_append (s : State) (l l' : List Byte) : s.sent (l ++ l') = (s.sent l).sent l' := by
  simp [State.sent, Nat.add_assoc]

theorem sent_cons (s : State) (b : Byte) (l : List Byte) : s.sent (b :: l) = (s.sent [b]).sent l := sent_append s [b] l

theorem srcByte_sent (s : State) (l : List Byte) : (s.sent l).srcByte = s.srcByte := by
  funext src
  cases src <;> rfl

/-- Once `j` frames have been offered, those that follow complete. -/
theorem framesOk_after {s t : State} {j n : Nat} (h : s.FramesOk (j + n)) (hbus : t.bus = s.bus.drop j)
    (hdraws : t.draws = s.draws + j) : t.FramesOk n := by
  intro k hk
  have hframe : t.frame k = s.frame (j + k) := by simp [State.frame, hbus, hdraws, Nat.add_assoc]
  rw [hframe]
  exact h _ (by omega)

theorem framesOk_sent {s : State} {l : List Byte} {n : Nat} (h : s.FramesOk (l.length + n)) : (s.sent l).FramesOk n :=
  framesOk_after h rfl rfl

theorem framesOk_mono {s : State} {m n : Nat} (h : s.FramesOk n) (hmn : m ≤ n) : s.FramesOk m :=
  fun k hk => h k (by omega)

theorem tx_eq_sent {s : State} (b : Byte) (f : State → State) (hok : s.FramesOk 1) : s.tx b f = f (s.sent [b]) := by
  rw [tx_ok s b f (hok 0 Nat.one_pos)]
  simp [State.sent, State.emit, State.popFrame]

theorem runs_tx {s : State} (hs : s.Running) {src : Src} {k : Nat} (hin : src.InRange s.cfg.val k)
    (hok : s.FramesOk 1) : s.Runs [.tx src k] (s.sent [s.srcByte src k]) :=
  .of_seqStep hs hin hs fun rest => tx_eq_sent (s := s.withTodo rest) _ id hok

/-- A command byte (40 R144). -/
theorem runs_command {s : State} (hs : s.Running) (opc : Byte) (hok : s.FramesOk 1) :
    s.Runs (command opc) ((s.setDC false).sent [opc]) :=
  have hin : Src.InRange s.cfg.val (.bytes [opc]) 0 := Nat.one_pos
  (runs_setDC hs false).cons (runs_tx (s := s.setDC false) hs hin hok)

/-- A burst in byte mode (40 R146). -/
theorem runs_txs {s : State} (hs : s.Running) {src : Src} (ks : List Nat) (hin : ∀ k ∈ ks, src.InRange s.cfg.val k)
    (hok : s.FramesOk ks.length) : s.Runs (ks.map (.tx src)) (s.sent (ks.map (s.srcByte src))) := by
  induction ks generalizing s with
  | nil => simpa using State.Runs.nil hs
  | cons k ks ih =>
    obtain ⟨hk, hks⟩ := List.forall_mem_cons.1 hin
    rw [List.length_cons, Nat.add_comm] at hok
    have htail := ih (s := s.sent [s.srcByte src k]) hs hks (framesOk_sent hok)
    rw [srcByte_sent] at htail
    rw [List.map_cons, List.map_cons, sent_cons]
    exact (runs_tx hs hk (framesOk_mono hok (by omega))).cons htail

/-- The DMA engine is at byte `i` of `n`, with `ops` to follow the burst. -/
def State.inBurst (s : State) (src : Src) (n i : Nat) (ops : List Micro) : State :=
  { s with dma := .active src n i, todo := some ops }

theorem blockStep_inBurst {s : State} (hs : s.Running) {src : Src} {n i : Nat} (hin : i < n → src.InRange s.cfg.val i)
    (ops : List Micro) : (s.inBurst src n i ops).blockStep = (s.inBurst src n i ops).dmaStep src n i := by
  obtain ⟨hseq, -, -, hhung⟩ := hs
  have hcan : (s.inBurst src n i ops).canStep = true := by
    refine canStep_of_reads hseq hhung nofun fun a ha => ?_
    change (if i < n then src.address i else none) = some a at ha
    split at ha
    · exact (hin ‹_›).address_lt ha
    · cases ha
  rw [State.blockStep, if_pos hcan]
  rfl

/-- The DMA engine sends the `k` bytes its burst has left and notifies the sequencer (40 R147). -/
theorem inBurst_reaches {s : State} (hs : s.Running) {src : Src} {i k : Nat}
    (hin : ∀ j, j < i + k → src.InRange s.cfg.val j) (hok : s.FramesOk k) (ops : List Micro) :
    (s.inBurst src (i + k) i ops).Reaches
      (State.withTodo { s.sent ((List.range' i k).map (s.srcByte src)) with done := true } ops) := by
  induction k generalizing s i with
  | zero =>
    refine .of_blockStep ((blockStep_inBurst hs (hin i) ops).trans ?_)
    simp [State.dmaStep, State.inBurst, State.withTodo, hs.2.1]
  | succ k ih =>
    rw [Nat.add_comm k 1] at hok
    have hbyte : (s.inBurst src (i + (k + 1)) i ops).blockStep =
        (s.sent [s.srcByte src i]).inBurst src (i + 1 + k) (i + 1) ops := by
      rw [blockStep_inBurst hs (hin i), State.dmaStep, if_pos (by omega),
        tx_eq_sent (s := s.inBurst src (i + (k + 1)) i ops) _ _ (framesOk_mono hok (by omega)), Nat.add_right_comm]
      cases src <;> rfl
    have htail := ih (s := s.sent [s.srcByte src i]) (i := i + 1) hs (fun j hj => hin j (by omega)) (framesOk_sent hok)
    rw [srcByte_sent] at htail
    rw [List.range'_succ, List.map_cons, sent_cons]
    exact (State.Reaches.of_blockStep hbyte).trans htail

/-- `s` after a data burst of the bytes `l` in mode `m`, with `DONE` as 40 R146 and R149 say. -/
def State.burstSent (s : State) (m : Mode) (l : List Byte) : State := { s.sent l with done := s.doneAfter m }

/-- `Burst` of at least one byte, in either mode (40 R146). -/
theorem runs_burst {s : State} (hs : s.Running) {src : Src} {n : Nat} (m : Mode) (hn : n ≠ 0)
    (hin : ∀ k, k < n → src.InRange s.cfg.val k) (hok : s.FramesOk n) :
    s.Runs (burst src n m) (s.burstSent m ((List.range n).map (s.srcByte src))) := by
  unfold burst
  rw [if_neg hn]
  cases m with
  | byte => exact runs_txs hs (List.range n) (fun k hk => hin k (List.mem_range.1 hk)) (by simpa using hok)
  | burst =>
    refine ⟨hs, fun rest => ?_⟩
    have hstart := blockStep_withTodo_cons hs (op := .dma src n) ⟨Nat.pos_of_ne_zero hn, hin⟩ rest
    have hsend := inBurst_reaches (s := { s with done := false }) (i := 0) hs (by simpa using hin) hok rest
    rw [Nat.zero_add, ← List.range_eq_range'] at hsend
    refine (State.Reaches.of_blockStep hstart).trans ?_
    cases src <;> exact hsend

theorem map_srcByte_bytes (s : State) (l : List Byte) : (List.range l.length).map (s.srcByte (.bytes l)) = l := by
  refine List.ext_getElem (by simp) fun k _ hk => ?_
  simp [State.srcByte, hk]

theorem runs_burstBytes {s : State} (hs : s.Running) (m : Mode) {l : List Byte} (hl : l ≠ [])
    (hok : s.FramesOk l.length) : s.Runs (burstBytes l m) (s.burstSent m l) := by
  have hrun := runs_burst hs m (src := .bytes l) (n := l.length) (by simpa using hl) (fun _ hk => hk) hok
  rwa [map_srcByte_bytes] at hrun

/-- Once a burst has been sent, another leaves `DONE` as it is. -/
theorem burstSent_eq_sent {s : State} {m : Mode} (hdone : s.doneAfter m = s.done) (l : List Byte) :
    s.burstSent m l = s.sent l := by
  rw [State.burstSent, hdone]
  rfl

/-- Pixels, one burst each (43 R192), after a burst of the same request. -/
theorem runs_pixelSteps {s : State} (hs : s.Running) {m : Mode} (hdone : s.doneAfter m = s.done) (ps : List Half)
    (hok : s.FramesOk (ps.flatMap px).length) : s.Runs (pixelSteps ps m) (s.sent (ps.flatMap px)) := by
  induction ps generalizing s with
  | nil => simpa [pixelSteps] using State.Runs.nil hs
  | cons p ps ih =>
    rw [List.flatMap_cons, List.length_append] at hok
    have hpixel := runs_burstBytes hs m (l := px p) (by simp [px, wireHalf]) (framesOk_mono hok (Nat.le_add_right _ _))
    rw [burstSent_eq_sent hdone] at hpixel
    rw [List.flatMap_cons, sent_append]
    exact hpixel.append (ih (s := s.sent (px p)) hs hdone (framesOk_sent hok))

/-! ### The window sequence and the painting of a rectangle -/

@[simp] theorem length_coordArgs (c0 c1 origin : Half) : (coordArgs c0 c1 origin).length = 4 := rfl

/-- `s` after the command `opc` and a data burst of its arguments `l` in mode `m`. -/
def State.commandSent (s : State) (m : Mode) (opc : Byte) (l : List Byte) : State :=
  (((s.setDC false).sent [opc]).setDC true).burstSent m l

theorem framesOk_commandSent {s : State} (m : Mode) (opc : Byte) {l : List Byte} {n : Nat}
    (h : s.FramesOk (1 + l.length + n)) : (s.commandSent m opc l).FramesOk n :=
  framesOk_after h List.drop_drop (Nat.add_assoc _ _ _)

theorem runs_commandSent {s : State} (hs : s.Running) (opc : Byte) (m : Mode) {l : List Byte} (hl : l ≠ [])
    (hok : s.FramesOk (1 + l.length)) :
    s.Runs (command opc ++ (.setDC true :: burstBytes l m)) (s.commandSent m opc l) := by
  have hcommand := runs_command hs opc (framesOk_mono hok (Nat.le_add_right 1 _))
  have hargs : (((s.setDC false).sent [opc]).setDC true).FramesOk l.length := framesOk_after hok rfl rfl
  have hdata := runs_setDC hcommand.running true
  exact hcommand.append (hdata.cons (runs_burstBytes hdata.running m hl hargs))

/-- `s` after a window sequence in mode `m` (42 R180). -/
def State.windowSent (s : State) (m : Mode) (w : Window) : State :=
  { s with
    dc := false
    window := w
    done := s.doneAfter m
    trace := s.trace ++ windowEvents s.cfg.val s.cs w
    bus := s.bus.drop 11
    draws := s.draws + 11 }

theorem doneAfter_windowSent (s : State) (m : Mode) (w : Window) :
    (s.windowSent m w).doneAfter m = (s.windowSent m w).done := by
  simp [State.doneAfter, State.windowSent]

/-- The window sequence command by command (42 R180). -/
theorem windowSent_eq (s : State) (m : Mode) (w : Window) :
    s.windowSent m w =
      { State.sent (State.setDC ((s.commandSent m s.cfg.val.opcCaset (coordArgs w.x0 w.x1 s.cfg.val.xStart)).commandSent m
          s.cfg.val.opcRaset (coordArgs w.y0 w.y1 s.cfg.val.yStart)) false) [s.cfg.val.opcRamwr] with window := w } := by
  simp [State.windowSent, State.commandSent, State.sent, State.burstSent, State.setDC, State.doneAfter, windowEvents,
    dataEvents]

theorem runs_setWindowSteps {s : State} (hs : s.Running) (m : Mode) {w : Window} (hw : w.inPanel s.cfg.val = true)
    (hok : s.FramesOk 11) : s.Runs (setWindowSteps s.cfg.val w m) (s.windowSent m w) := by
  have hargs : ∀ c0 c1 origin : Half, coordArgs c0 c1 origin ≠ [] := fun _ _ _ => List.cons_ne_nil _ _
  have hcols := runs_commandSent hs s.cfg.val.opcCaset m (hargs w.x0 w.x1 s.cfg.val.xStart) (framesOk_mono hok (by simp))
  have hok₁ := framesOk_commandSent (n := 6) m s.cfg.val.opcCaset (l := coordArgs w.x0 w.x1 s.cfg.val.xStart) hok
  have hrows := runs_commandSent hcols.running s.cfg.val.opcRaset m (hargs w.y0 w.y1 s.cfg.val.yStart)
    (framesOk_mono hok₁ (by simp))
  have hok₂ := framesOk_commandSent (n := 1) m s.cfg.val.opcRaset (l := coordArgs w.y0 w.y1 s.cfg.val.yStart) hok₁
  have hramwr := runs_command hrows.running s.cfg.val.opcRamwr hok₂
  have hall := ((hcols.append hrows).append hramwr).append (runs_setWindow hramwr.running hw)
  rw [windowSent_eq]
  simpa only [setWindowSteps, List.append_assoc] using hall

/-- A draw request between its select and its unselect (43 R190): what `before`, the data level and `pixels` make of the
state after the window sequence. -/
theorem runs_paintSteps {s t : State} (hs : s.Running) (m : Mode) {x y w h : Nat} {before pixels : List Micro}
    (hw : (rectWindow x y w h).inPanel s.cfg.val = true) (hok : s.FramesOk 11)
    (hrun : ((s.setCS false).windowSent m (rectWindow x y w h)).Runs (before ++ (.setDC true :: pixels)) t) :
    s.Runs (paintSteps s.cfg.val m x y w h before pixels) (t.setCS true) := by
  have hselect := runs_setCS hs false
  have hwindow := runs_setWindowSteps hselect.running m hw hok
  have hall := (hselect.cons (hwindow.append hrun)).append (runs_setCS hrun.running true)
  simpa only [paintSteps, bracketed, List.append_assoc, List.cons_append, setCS_cfg] using hall

/-- The state in which a draw request sends the pixels of the rectangle of `w` by `h` at `(x, y)` (43 R190, R194). -/
def State.painting (s : State) (m : Mode) (x y w h : Nat) : State :=
  ((s.setCS false).windowSent m (rectWindow x y w h)).setDC true

theorem doneAfter_painting (s : State) (m : Mode) (x y w h : Nat) :
    (s.painting m x y w h).doneAfter m = (s.painting m x y w h).done :=
  doneAfter_windowSent (s.setCS false) m (rectWindow x y w h)

theorem framesOk_painting {s : State} (m : Mode) (x y w h : Nat) {n : Nat} (hok : s.FramesOk (11 + n)) :
    (s.painting m x y w h).FramesOk n :=
  framesOk_after hok rfl rfl

/-- The pixels sent, CS released and the request completed, from the state its doorbell left. -/
theorem painted_eq {s : State} (m : Mode) (x y w h : Nat) (bytes : List Byte) (htodo : s.todo = none) :
    (((s.painting m x y w h).sent bytes).setCS true).complete = s.painted m x y w h bytes := by
  cases hcs : s.cs <;>
    simp [State.painting, State.painted, State.complete, State.setCS, State.sent, State.setDC, State.windowSent,
      State.doneAfter, State.lowEvents, dataEvents, hcs, htodo, Nat.add_assoc]

/-- A plan whose steps run to `t` ends the request in `t`, completed (30 R115). -/
theorem exec_of_runs {s t : State} {i : Instr} {ops : List Micro} (hplan : plan i s = .ok ops) (h : s.Runs ops t) :
    exec i s = .next t.complete := by
  rw [exec_eq_request, request_eq, hplan]
  exact congrArg _ h.finish_eq

theorem State.Latched.running {s : State} (h : s.Latched) : s.Running := by
  obtain ⟨hseq, -, hd, ht, hhung⟩ := h
  exact ⟨hseq, hd, ht, hhung⟩

/-- A draw request whose plan paints a rectangle on the panel, and whose pixel steps send `bytes` (43 R190, R194). -/
theorem exec_painted {s : State} {i : Instr} (m : Mode) {x y w h : Nat} {pixels : List Micro} {bytes : List Byte}
    (hs : s.Latched) (hplan : plan i s = .ok (paintSteps s.cfg.val m x y w h [] pixels))
    (hw : (rectWindow x y w h).inPanel s.cfg.val = true) (hok : s.FramesOk 11)
    (hpixels : (s.painting m x y w h).Runs pixels ((s.painting m x y w h).sent bytes)) :
    exec i s = .next (s.painted m x y w h bytes) := by
  obtain ⟨-, htodo, -⟩ := id hs
  have hdata := runs_setDC (s := (s.setCS false).windowSent m (rectWindow x y w h)) hs.running true
  rw [exec_of_runs hplan (runs_paintSteps hs.running m hw hok (hdata.cons hpixels)), painted_eq m x y w h bytes htodo]

theorem flatMap_px_replicate (n : Nat) (color : Half) : (List.replicate n color).flatMap px = pixelBytes n color := by
  simp [pixelBytes, List.flatMap]

@[simp] theorem length_pixelBytes (n : Nat) (color : Half) : (pixelBytes n color).length = 2 * n := by
  simp [pixelBytes, px, wireHalf, Nat.mul_comm]

/-- FILL_RECT of a rectangle that clipping has not left empty, while the frames complete (43 R194). -/
theorem exec_fillRect_painted {s : State} (m : Mode) {x y w h color : Half} {w' h' : Nat} (hs : s.Latched)
    (hready : s.pstate = .ready) (hclip : clip s.cfg.val x.toNat y.toNat w.toNat h.toNat = some (w', h'))
    (hok : s.FramesOk (11 + 2 * (w' * h'))) :
    exec (.fillRect m x y w h color) s = .next (s.painted m x.toNat y.toNat w' h' (pixelBytes (w' * h') color)) := by
  obtain ⟨hw, -, hx, hh, -, hy⟩ := clip_some hclip
  have hplan : plan (.fillRect m x y w h color) s = .ok (paintSteps s.cfg.val m x.toNat y.toNat w' h' []
      (pixelSteps (List.replicate (w' * h') color) m)) := by
    simp [plan, planFillRect, hready, fillSteps, hclip, Nat.mul_comm]
  have hpixels := runs_pixelSteps (s := s.painting m x.toNat y.toNat w' h') hs.running (doneAfter_painting s m _ _ _ _)
    (List.replicate (w' * h') color)
  rw [flatMap_px_replicate, length_pixelBytes] at hpixels
  exact exec_painted m hs hplan (rectWindow_inPanel s.cfg.property hw hx hh hy) (framesOk_mono hok (Nat.le_add_right 11 _))
    (hpixels (framesOk_painting m _ _ _ _ hok))

end Sys2Proof.Machine

/-! ## What the panel shows of a filled rectangle (20 R90 to R93; 43 R194) -/

namespace Sys2Proof.Machine

/-! ### The panel's reading of a window sequence -/

theorem hi_append_lo (v : Half) : hi v ++ lo v = v := by
  refine BitVec.eq_of_getLsbD_eq fun i _ => ?_
  simp only [hi, lo, BitVec.getLsbD_append, BitVec.getLsbD_extractLsb', Nat.zero_add]
  grind

theorem view_append (c : Config) (p : Panel) (es fs : List Event) :
    p.view c (es ++ fs) = (p.view c es).view c fs :=
  List.foldl_append

/-- The panel's opcodes are told apart (log 24). -/
structure OpcodesDistinct (c : Config) : Prop where
  casetRaset : c.opcCaset ≠ c.opcRaset
  casetRamwr : c.opcCaset ≠ c.opcRamwr
  rasetRamwr : c.opcRaset ≠ c.opcRamwr

theorem rangeOf_coordArgs (c0 c1 origin : Half) :
    rangeOf (coordArgs c0 c1 origin) = some ((wireCoord c0 origin).toNat, (wireCoord c1 origin).toNat) := by
  simp [coordArgs, wireHalf, rangeOf, hi_append_lo]

/-- A column-address-set command with its four bytes (20 R91). -/
theorem view_caset (c : Config) (p : Panel) (c0 c1 origin : Half) :
    p.view c (.byte false false c.opcCaset :: dataEvents false (coordArgs c0 c1 origin)) =
      { p with
        cmd := some c.opcCaset
        args := coordArgs c0 c1 origin
        cols := some ((wireCoord c0 origin).toNat, (wireCoord c1 origin).toNat)
        half := none
        count := 0 } := by
  rw [← rangeOf_coordArgs]
  simp [Panel.view, Panel.see, Panel.command, Panel.data, dataEvents, coordArgs, wireHalf]

/-- A row-address-set command with its four bytes (20 R91). -/
theorem view_raset {c : Config} (hc : OpcodesDistinct c) (p : Panel) (c0 c1 origin : Half) :
    p.view c (.byte false false c.opcRaset :: dataEvents false (coordArgs c0 c1 origin)) =
      { p with
        cmd := some c.opcRaset
        args := coordArgs c0 c1 origin
        rows := some ((wireCoord c0 origin).toNat, (wireCoord c1 origin).toNat)
        half := none
        count := 0 } := by
  rw [← rangeOf_coordArgs]
  simp [Panel.view, Panel.see, Panel.command, Panel.data, dataEvents, coordArgs, wireHalf, hc.casetRaset.symm]

/-- `p` once a window sequence has set the window of its wire coordinates and opened the pixel stream. -/
def Panel.opened (c : Config) (p : Panel) (w : Window) : Panel :=
  { p with
    cmd := some c.opcRamwr
    args := []
    cols := some ((wireCoord w.x0 c.xStart).toNat, (wireCoord w.x1 c.xStart).toNat)
    rows := some ((wireCoord w.y0 c.yStart).toNat, (wireCoord w.y1 c.yStart).toNat)
    half := none
    count := 0 }

theorem view_windowEvents {c : Config} (hc : OpcodesDistinct c) (p : Panel) (w : Window) :
    p.view c (windowEvents c false w) = p.opened c w := by
  rw [windowEvents, view_append, view_append, view_caset, view_raset hc]
  rfl

/-! ### Its reading of a pixel stream -/

/-- The first byte of a pixel waits for the second (20 R92). -/
theorem data_first_half {c : Config} (hc : OpcodesDistinct c) {p : Panel} (hcmd : p.cmd = some c.opcRamwr)
    (hhalf : p.half = none) (b : Byte) : p.data c b = { p with half := some b } := by
  simp [Panel.data, hcmd, hhalf, hc.casetRamwr.symm, hc.rasetRamwr.symm]

theorem data_second_half {c : Config} (hc : OpcodesDistinct c) {p : Panel} (hcmd : p.cmd = some c.opcRamwr) {h : Byte}
    (hhalf : p.half = some h) (b : Byte) : p.data c b = p.pixel (h ++ b) := by
  simp [Panel.data, hcmd, hhalf, hc.casetRamwr.symm, hc.rasetRamwr.symm]

/-- The two bytes of a pixel (20 R92). -/
theorem view_px {c : Config} (hc : OpcodesDistinct c) {p : Panel} (hcmd : p.cmd = some c.opcRamwr)
    (hhalf : p.half = none) (v : Half) : p.view c (dataEvents false (px v)) = p.pixel v := by
  show Panel.data c (p.data c (hi v)) (lo v) = p.pixel v
  rw [data_first_half hc hcmd hhalf, data_second_half hc (h := hi v) (p := { p with half := some (hi v) }) hcmd rfl,
    hi_append_lo]
  rfl

/-- A pixel that the window has room for (20 R92). -/
theorem pixel_inside {p : Panel} {xs xe ys ye : Nat} (hcols : p.cols = some (xs, xe)) (hrows : p.rows = some (ys, ye))
    (hroom : p.count < (xe + 1 - xs) * (ye + 1 - ys)) (v : Half) :
    p.pixel v = { p with
      half := none
      count := p.count + 1
      pixels := p.pixels ++ [(xs + p.count % (xe + 1 - xs), ys + p.count / (xe + 1 - xs), v)] } := by
  simp only [Panel.pixel, hcols, hrows, if_pos hroom]

/-- A stream of `n` pixels of one colour that the window has room for: each goes to the next place, row by row. -/
theorem view_pixelBytes {c : Config} (hc : OpcodesDistinct c) {p : Panel} (hcmd : p.cmd = some c.opcRamwr)
    (hhalf : p.half = none) {xs xe ys ye : Nat} (hcols : p.cols = some (xs, xe)) (hrows : p.rows = some (ys, ye))
    {n : Nat} (hroom : p.count + n ≤ (xe + 1 - xs) * (ye + 1 - ys)) (v : Half) :
    p.view c (dataEvents false (pixelBytes n v)) = { p with
      count := p.count + n
      pixels := p.pixels ++ (List.range' p.count n).map fun k => (xs + k % (xe + 1 - xs), ys + k / (xe + 1 - xs), v) } := by
  induction n generalizing p with
  | zero => simp [pixelBytes, dataEvents, Panel.view]
  | succ n ih =>
    have hsplit : dataEvents false (pixelBytes (n + 1) v) =
        dataEvents false (px v) ++ dataEvents false (pixelBytes n v) := by
      simp [dataEvents, pixelBytes, List.replicate_succ]
    rw [hsplit, view_append, view_px hc hcmd hhalf, pixel_inside hcols hrows (by omega)]
    have hroom' : p.count + 1 + n ≤ (xe + 1 - xs) * (ye + 1 - ys) := by omega
    refine Eq.trans (ih hcmd rfl hcols hrows hroom') ?_
    simp [List.range'_succ, hhalf, Nat.add_assoc, Nat.add_comm 1 n]

/-! ### A whole rectangle -/

/-- Counting row by row through `h` rows of `w` places each. -/
theorem map_range_mul {α : Type} (w h : Nat) (f : Nat → Nat → α) :
    ((List.range (w * h)).map fun k => f (k % w) (k / w)) =
      (List.range h).flatMap fun r => (List.range w).map fun col => f col r := by
  induction h with
  | zero => simp
  | succ h ih =>
    rw [Nat.mul_succ, List.range_add, List.map_append, ih, List.range_succ, List.flatMap_append, List.flatMap_singleton,
      List.map_map]
    congr 1
    refine List.map_congr_left fun col hcol => ?_
    have hlt : col < w := List.mem_range.1 hcol
    simp [Nat.mod_eq_of_lt hlt, Nat.mul_add_div (by omega : 0 < w), Nat.div_eq_of_lt hlt]

/-- A coordinate on the panel whose origin offset does not wrap (30 R118). -/
theorem toNat_wireCoord {k : Nat} {origin : Half} (h : origin.toNat + k < 65536) :
    (wireCoord (BitVec.ofNat 16 k) origin).toNat = origin.toNat + k := by
  rw [wireCoord, BitVec.toNat_add, BitVec.toNat_ofNat]
  omega

/-- The window and the pixels of a rectangle of one colour, as the panel shows them (20 R92, R93). -/
theorem view_rectangle {c : Config} (hc : OpcodesDistinct c) (p : Panel) {x y w h : Nat} (hw : 1 ≤ w) (hh : 1 ≤ h)
    (hx : c.xStart.toNat + x + w ≤ 65536) (hy : c.yStart.toNat + y + h ≤ 65536) (color : Half) :
    p.view c (windowEvents c false (rectWindow x y w h) ++ dataEvents false (pixelBytes (w * h) color)) =
      { p.opened c (rectWindow x y w h) with
        count := w * h
        pixels := p.pixels ++ (List.range h).flatMap fun r => (List.range w).map fun col =>
          (c.xStart.toNat + x + col, c.yStart.toNat + y + r, color) } := by
  have hcols : (p.opened c (rectWindow x y w h)).cols =
      some (c.xStart.toNat + x, c.xStart.toNat + (x + w - 1)) := by
    rw [← toNat_wireCoord (k := x) (by omega), ← toNat_wireCoord (k := x + w - 1) (by omega)]
    rfl
  have hrows : (p.opened c (rectWindow x y w h)).rows =
      some (c.yStart.toNat + y, c.yStart.toNat + (y + h - 1)) := by
    rw [← toNat_wireCoord (k := y) (by omega), ← toNat_wireCoord (k := y + h - 1) (by omega)]
    rfl
  have hwidth : c.xStart.toNat + (x + w - 1) + 1 - (c.xStart.toNat + x) = w := by omega
  have hheight : c.yStart.toNat + (y + h - 1) + 1 - (c.yStart.toNat + y) = h := by omega
  have hroom : 0 + w * h ≤ (c.xStart.toNat + (x + w - 1) + 1 - (c.xStart.toNat + x)) *
      (c.yStart.toNat + (y + h - 1) + 1 - (c.yStart.toNat + y)) := by
    rw [hwidth, hheight, Nat.zero_add]
  rw [view_append, view_windowEvents hc, view_pixelBytes hc rfl rfl hcols hrows hroom, hwidth,
    ← map_range_mul w h fun col r => (c.xStart.toNat + x + col, c.yStart.toNat + y + r, color)]
  simp [Panel.opened, List.range_eq_range']

/-- The select and unselect events are not for the panel (20 R90). -/
theorem view_lowEvents (c : Config) (p : Panel) (s : State) : p.view c s.lowEvents = p := by
  unfold State.lowEvents
  split <;> rfl

theorem view_csHigh (c : Config) (p : Panel) : p.view c [.csHigh] = p := rfl

/-- Settles O52: FILL_RECT sends the window sequence of the clipped rectangle and its `w' * h'` pixels, and the panel
places them row by row from the window's corner. -/
theorem panelShowsFilledRectangle : Obligations.PanelShowsFilledRectangle := by
  intro m x y w h color s p w' h' hs hready hclip hok hcr hcw hrw hx hy
  obtain ⟨hw, -, hxw, hh, -, hyh⟩ := clip_some hclip
  have hview := view_rectangle ⟨hcr, hcw, hrw⟩ p (x := x.toNat) (y := y.toNat) hw hh (by omega) (by omega) color
  refine ⟨_, s.lowEvents ++ (windowEvents s.cfg.val false (rectWindow x.toNat y.toNat w' h') ++
    dataEvents false (pixelBytes (w' * h') color) ++ [.csHigh]), exec_fillRect_painted m hs hready hclip hok, ?_, ?_⟩
  · simp [State.painted]
  · rw [view_append, view_lowEvents, view_append, view_csHigh, hview]
    exact ⟨rfl, rfl⟩

end Sys2Proof.Machine

/-! ## The fields of `W0`, and the rows of the opcode map (30 R100 to R109) -/

namespace Sys2Proof

open Machine (opOf modeOf withMode)

/-- Two words joined of parts of the same widths are equal when their parts are. -/
theorem append_inj {m n : Nat} {a a' : BitVec m} {b b' : BitVec n} : a ++ b = a' ++ b' ↔ a = a' ∧ b = b' := by
  refine ⟨fun h => ⟨?_, ?_⟩, by rintro ⟨rfl, rfl⟩; rfl⟩
  · rw [← BitVec.extractLsb'_append_eq_left (a := a) (b := b), h, BitVec.extractLsb'_append_eq_left]
  · rw [← BitVec.extractLsb'_append_eq_right (a := a) (b := b), h, BitVec.extractLsb'_append_eq_right]

/-- `W0` cut at the field boundaries of 30 R100. -/
theorem word_eq_fields (w : Word) :
    w = w.extractLsb' 24 8 ++ w.extractLsb' 16 8 ++ w.extractLsb' 9 7 ++ w.extractLsb' 8 1 ++ w.extractLsb' 0 8 := by
  refine BitVec.eq_of_getLsbD_eq fun i hi => ?_
  simp only [BitVec.getLsbD_append, BitVec.getLsbD_extractLsb']
  grind

theorem Desc.reservedZero_iff (d : Desc) :
    d.reservedZero = true ↔ d.w0.extractLsb' 9 7 = 0 ∧ d.w0.extractLsb' 24 8 = 0 := by
  simp [Desc.reservedZero]

theorem Desc.modeBit_eq (d : Desc) : d.w0.extractLsb' 8 1 = BitVec.ofBool (d.mode == .burst) := by
  have hbit : d.w0.extractLsb' 8 1 = BitVec.ofBool (d.w0.getLsbD 8) := by
    ext i hi
    obtain rfl : i = 0 := by omega
    simp [BitVec.getElem_extractLsb']
  rw [hbit]
  unfold Desc.mode
  cases d.w0.getLsbD 8 <;> rfl

/-- With its reserved bits 0, `W0` is `OP`, `MODE` and `IMM8` (30 R100, R103). -/
theorem Desc.w0_eq_w0Of {d : Desc} (h : d.reservedZero = true) : d.w0 = w0Of d.op d.mode d.imm8 := by
  obtain ⟨hlow, hhigh⟩ := d.reservedZero_iff.1 h
  rw [word_eq_fields d.w0, hlow, hhigh, d.modeBit_eq]
  rfl

/-- The masks of 30 R107: `OP` and the reserved bits whole, `MODE` free, and the bits of `IMM8` that `imm` names. -/
def rowMask (imm : Byte) : Word := (0xFF : Byte) ++ imm ++ (0x7F : BitVec 7) ++ (0 : BitVec 1) ++ (0xFF : Byte)

/-- The masked `W0` is compared field by field; `MODE` is masked away. -/
theorem Desc.and_rowMask_iff (d : Desc) (imm op : Byte) :
    d.w0 &&& rowMask imm = w0Of op .byte 0 ↔ d.op = op ∧ d.reservedZero = true ∧ d.imm8 &&& imm = 0 := by
  have hbyte (b : Byte) : b &&& 0xFF = b := BitVec.and_allOnes
  have hlow (b : BitVec 7) : b &&& 0x7F = b := BitVec.and_allOnes
  rw [d.reservedZero_iff, word_eq_fields d.w0, rowMask, w0Of, BitVec.and_append, BitVec.and_append, BitVec.and_append,
    BitVec.and_append, append_inj, append_inj, append_inj, append_inj, hbyte, hbyte, hlow, ← word_eq_fields d.w0]
  change (((d.w0.extractLsb' 24 8 = 0 ∧ d.imm8 &&& imm = 0) ∧ d.w0.extractLsb' 9 7 = 0) ∧ _) ∧ d.op = op ↔ _
  have hmode : d.w0.extractLsb' 8 1 &&& 0 = BitVec.ofBool (Mode.byte == Mode.burst) := BitVec.and_zero
  tauto

/-- The bits of `IMM8` that must be 0 in a request with operation code `op` (30 R104). -/
def immMask (op : Byte) : Byte :=
  if op.toNat == 0x03 || op.toNat == 0x18 || op.toNat == 0x14 then 0 else if op.toNat == 0x17 then 0xFE else 0xFF

/-- Every row of the map masks the same fields, but for its bits of `IMM8`, and asks for its own `OP` (30 R107). -/
theorem opMap_words : ∀ r ∈ opMap, r.mask = rowMask (immMask r.op) ∧ r.pat = w0Of r.op .byte 0 := by
  decide

theorem Desc.opAssigned_iff (d : Desc) : d.opAssigned = true ↔ ∃ r ∈ opMap, r.op = d.op := by
  change (let op := d.op.toNat; ((0x01 ≤ op && op ≤ 0x06) || (0x10 ≤ op && op ≤ 0x18) || op == 0x20) = true) ↔ _
  generalize d.op = op
  revert op
  decide

/-- The format of a row holds to 0 the fields that its `OP` leaves unused (30 R105, R109). -/
theorem Desc.unused_row {r : OpRow} (hr : r ∈ opMap) {d : Desc} (hop : d.op = r.op) :
    r.fmt.zeroFieldsOK d = d.unusedZero := by
  unfold Desc.op at hop
  unfold Desc.unusedZero
  rw [hop]
  simp only [opMap, List.mem_cons, List.not_mem_nil, or_false] at hr
  rcases hr with rfl | rfl | rfl | rfl | rfl | rfl | rfl | rfl | rfl | rfl | rfl | rfl | rfl | rfl | rfl | rfl <;> rfl

theorem and_0xFE_eq_zero_iff : ∀ b : Byte, b &&& 0xFE = 0 ↔ b.extractLsb' 1 7 = 0 := by decide

theorem Desc.imm8Legal_iff (d : Desc) : d.imm8Legal = true ↔ d.imm8 &&& immMask d.op = 0 := by
  have hbit : d.w0.extractLsb' 17 7 = d.imm8.extractLsb' 1 7 := by
    refine BitVec.eq_of_getLsbD_eq fun i hi => ?_
    simp only [Desc.imm8, BitVec.getLsbD_extractLsb']
    grind
  unfold Desc.imm8Legal immMask Desc.op
  rw [hbit]
  dsimp only
  split
  · simp
  · split
    · rw [and_0xFE_eq_zero_iff, beq_iff_eq]
    · rw [beq_iff_eq]
      exact (BitVec.and_allOnes (x := d.imm8)).symm ▸ Iff.rfl

/-- What legal field by field means for a descriptor with the `OP` of a row. -/
theorem Desc.wellFormed_row {r : OpRow} (hr : r ∈ opMap) {d : Desc} (hop : r.op = d.op) :
    d.wellFormed = true ↔
      d.reservedZero = true ∧ d.imm8 &&& immMask r.op = 0 ∧ r.fmt.zeroFieldsOK d = true := by
  have hassigned : d.opAssigned = true := d.opAssigned_iff.2 ⟨r, hr, hop⟩
  rw [d.unused_row hr hop.symm, hop, ← d.imm8Legal_iff]
  simp [Desc.wellFormed, hassigned, and_assoc]

/-- The checks of the row pass exactly the well-formed descriptors (30 R107, R109). -/
theorem Desc.passes_iff {r : OpRow} (hr : r ∈ opMap) {d : Desc} (hop : r.op = d.op) :
    (d.w0 &&& r.mask = r.pat ∧ r.fmt.zeroFieldsOK d = true) ↔ d.wellFormed = true := by
  obtain ⟨hmask, hpat⟩ := opMap_words r hr
  rw [hmask, hpat, d.and_rowMask_iff, d.wellFormed_row hr hop]
  simp [hop, and_assoc]

/-- No two rows of the map have one `OP`. -/
theorem find_row {r : OpRow} (hr : r ∈ opMap) : opMap.find? (fun q => q.op == r.op) = some r := by
  have hdistinct : (opMap.map OpRow.op).Nodup := by decide
  cases hfind : opMap.find? (fun q => q.op == r.op) with
  | none => simpa using List.find?_eq_none.1 hfind r hr
  | some q =>
    have hop : q.op = r.op := by simpa using List.find?_some hfind
    rw [List.inj_on_of_nodup_map hdistinct (List.mem_of_find?_eq_some hfind) hr hop]

theorem decode_row_eq_ok_iff {r : OpRow} (hr : r ∈ opMap) {d : Desc} (hop : r.op = d.op) (i : Instr) :
    decode d = .ok i ↔ d.wellFormed = true ∧ r.make d = i := by
  have hfind : opMap.find? (fun q => q.op == d.op) = some r := hop ▸ find_row hr
  rw [← Desc.passes_iff hr hop, decode, hfind]
  dsimp only
  split
  · simp_all
  · split <;> simp_all

theorem decode_ne_ok {d : Desc} (h : d.opAssigned = false) (i : Instr) : decode d ≠ .ok i := by
  have hfind : opMap.find? (fun q => q.op == d.op) = none :=
    List.find?_eq_none.2 fun r hr hop => by simp [d.opAssigned_iff.2 ⟨r, hr, by simpa using hop⟩] at h
  simp [decode, hfind]

/-- What decodes, and to what: the well-formed descriptor of a row, to the request of that row (30 R111). -/
theorem decode_eq_ok_iff (d : Desc) (i : Instr) :
    decode d = .ok i ↔ d.wellFormed = true ∧ ∃ r ∈ opMap, r.op = d.op ∧ r.make d = i := by
  constructor
  · intro h
    have hassigned : d.opAssigned = true := by
      by_contra hnone
      exact decode_ne_ok (by simpa using hnone) i h
    obtain ⟨r, hr, hop⟩ := d.opAssigned_iff.1 hassigned
    obtain ⟨hwf, hmake⟩ := (decode_row_eq_ok_iff hr hop i).1 h
    exact ⟨hwf, r, hr, hop, hmake⟩
  · rintro ⟨hwf, r, hr, hop, hmake⟩
    exact (decode_row_eq_ok_iff hr hop i).2 ⟨hwf, hmake⟩

/-- Settles O3: of the descriptors with an `OP` of the map, the checks of the row pass exactly the well-formed ones. -/
theorem decodesExactlyWellFormed : Obligations.DecodesExactlyWellFormed := by
  intro d
  refine ⟨fun ⟨i, h⟩ => ((decode_eq_ok_iff d i).1 h).1, fun hwf => ?_⟩
  have hchecks := hwf
  simp only [Desc.wellFormed, Bool.and_eq_true] at hchecks
  obtain ⟨⟨⟨hassigned, -⟩, -⟩, -⟩ := hchecks
  obtain ⟨r, hr, hop⟩ := d.opAssigned_iff.1 hassigned
  exact ⟨r.make d, (decode_eq_ok_iff d _).2 ⟨hwf, r, hr, hop, rfl⟩⟩

/-! ### The fields of an encoded request -/

theorem encode_w0 (i : Instr) :
    ∃ imm, (encode i).w0 = w0Of (opOf i) (modeOf i) imm ∧ imm &&& immMask (opOf i) = 0 := by
  cases i with
  | invert m on =>
    have hbit : ∀ b : Bool, (0 : BitVec 7) ++ BitVec.ofBool b &&& immMask 0x17 = 0 := by decide
    exact ⟨_, rfl, hbit on⟩
  | wrcmd m opc => exact ⟨_, rfl, BitVec.and_zero⟩
  | setGamma m curve => exact ⟨_, rfl, BitVec.and_zero⟩
  | writeString m f x y fg bg addr => exact ⟨_, rfl, BitVec.and_zero⟩
  | _ => exact ⟨_, rfl, BitVec.zero_and⟩

@[simp] theorem mode_w0Of (op : Byte) (m : Mode) (imm : Byte) (w1 w2 w3 : Word) :
    Desc.mode ⟨w0Of op m imm, w1, w2, w3⟩ = m := (Laws.Fields.of_w0 rfl).2.1

@[simp] theorem imm8_w0Of (op : Byte) (m : Mode) (imm : Byte) (w1 w2 w3 : Word) :
    Desc.imm8 ⟨w0Of op m imm, w1, w2, w3⟩ = imm := w0Of_imm8 op m imm

/-- `IMM8[0]` is bit 16 of `W0` (30 R104). -/
@[simp] theorem w0Of_getElem_16 (op : Byte) (m : Mode) (imm : Byte) : (w0Of op m imm)[16] = imm[0] := by
  conv_rhs => rw [← BitVec.getLsbD_eq_getElem, ← w0Of_imm8 op m imm]
  simp

@[simp] theorem loHalf_single (lo : Half) : loHalf (single lo) = lo := loHalf_pair lo 0
@[simp] theorem hiHalf_single (lo : Half) : hiHalf (single lo) = 0 := hiHalf_pair lo 0

section Bytes

variable (b3 b2 b1 b0 : Byte)

@[simp] theorem byteAt_append_0 : byteAt (b3 ++ b2 ++ b1 ++ b0) 0 = b0 := BitVec.extractLsb'_append_eq_right
@[simp] theorem byteAt_append_1 : byteAt (b3 ++ b2 ++ b1 ++ b0) 1 = b1 := by
  rw [byteAt, BitVec.extractLsb'_append_eq_of_le (by decide)]
  exact BitVec.extractLsb'_append_eq_right
@[simp] theorem byteAt_append_2 : byteAt (b3 ++ b2 ++ b1 ++ b0) 2 = b2 := by
  rw [byteAt, BitVec.extractLsb'_append_eq_of_le (by decide), BitVec.extractLsb'_append_eq_of_le (by decide)]
  exact BitVec.extractLsb'_append_eq_right
@[simp] theorem byteAt_append_3 : byteAt (b3 ++ b2 ++ b1 ++ b0) 3 = b3 := by
  rw [byteAt, BitVec.extractLsb'_append_eq_of_le (by decide), BitVec.extractLsb'_append_eq_of_le (by decide)]
  exact BitVec.extractLsb'_append_eq_left

end Bytes

/-- The row of the map for a request: its zero fields are 0 in the encoding, and it reads the operands back. -/
theorem encode_row (i : Instr) :
    ∃ r ∈ opMap, r.op = opOf i ∧ r.fmt.zeroFieldsOK (encode i) = true ∧ r.make (encode i) = i := by
  have hbit : ∀ b : Bool, (0#7 ++ BitVec.ofBool b)[0] = b := by decide
  cases i <;> simp [opMap, opOf, encode, Format.zeroFieldsOK, hbit]

theorem encode_wellFormed (i : Instr) : (encode i).wellFormed = true := by
  obtain ⟨imm, hw0, himm⟩ := encode_w0 i
  obtain ⟨hop, -, hreserved⟩ := Laws.Fields.of_w0 hw0
  obtain ⟨r, hr, hrop, hzero, -⟩ := encode_row i
  have himm8 : (encode i).imm8 = imm := by rw [Desc.imm8, hw0, w0Of_imm8]
  rw [Desc.wellFormed_row hr (hrop.trans hop.symm), himm8, hrop]
  exact ⟨hreserved, himm, hzero⟩

/-- Settles O1: an encoded request is well-formed, and its row of the map reads back its operands. -/
theorem decodeOfEncode : Obligations.DecodeOfEncode := by
  intro i
  obtain ⟨r, hr, hop, -, hmake⟩ := encode_row i
  obtain ⟨imm, hw0, -⟩ := encode_w0 i
  exact (decode_eq_ok_iff _ i).2 ⟨encode_wellFormed i, r, hr, hop.trans (Laws.Fields.of_w0 hw0).1.symm, hmake⟩

/-! ### A well-formed descriptor is made of its fields -/

@[simp] theorem pair_loHalf_hiHalf (w : Word) : pair (loHalf w) (hiHalf w) = w :=
  (BitVec.extractLsb'_append_extractLsb'_eq_extractLsb' rfl).trans BitVec.extractLsb'_eq_self

theorem single_loHalf {w : Word} (h : hiHalf w = 0) : single (loHalf w) = w := by
  rw [single, ← h, pair_loHalf_hiHalf]

theorem bytes_byteAt {w : Word} (h : byteAt w 3 = 0) : 0#8 ++ byteAt w 2 ++ byteAt w 1 ++ byteAt w 0 = w := by
  rw [show 0#8 = byteAt w 3 from h.symm]
  refine BitVec.eq_of_getLsbD_eq fun i hi => ?_
  simp only [byteAt, BitVec.getLsbD_append, BitVec.getLsbD_extractLsb']
  grind

theorem Desc.mk_eq_iff (d : Desc) (w0 w1 w2 w3 : Word) :
    ⟨w0, w1, w2, w3⟩ = d ↔ w0 = d.w0 ∧ w1 = d.w1 ∧ w2 = d.w2 ∧ w3 = d.w3 := by
  cases d
  simp

/-- The request of a row keeps every field of the descriptor that the row does not hold to 0. -/
theorem encode_make {r : OpRow} (hr : r ∈ opMap) {d : Desc} (hw0 : d.w0 = w0Of r.op d.mode d.imm8)
    (himm : d.imm8 &&& immMask r.op = 0) (hzero : r.fmt.zeroFieldsOK d = true) : encode (r.make d) = d := by
  have hwhole : ∀ b : Byte, b &&& 255#8 = 0#8 ↔ b = 0#8 := by decide
  have hbit : ∀ b : Byte, b &&& 254#8 = 0#8 ↔ 0#7 ++ BitVec.ofBool b[0] = b := by decide
  simp only [opMap, List.mem_cons, List.not_mem_nil, or_false] at hr
  rcases hr with rfl | rfl | rfl | rfl | rfl | rfl | rfl | rfl | rfl | rfl | rfl | rfl | rfl | rfl | rfl | rfl <;>
    simp_all [encode, Format.zeroFieldsOK, immMask, Desc.mk_eq_iff, single_loHalf, bytes_byteAt]

/-- Settles O2: the row's checks leave no bit of the descriptor that the request's encoding would not set. -/
theorem encodeOfDecode : Obligations.EncodeOfDecode := by
  intro d i h
  obtain ⟨hwf, r, hr, hop, rfl⟩ := (decode_eq_ok_iff d i).1 h
  obtain ⟨hreserved, himm, hzero⟩ := (Desc.wellFormed_row hr hop).1 hwf
  exact encode_make hr (hop ▸ Desc.w0_eq_w0Of hreserved) himm hzero

theorem w0Of_xor_mode (op : Byte) (m : Mode) (imm : Byte) :
    w0Of op m imm ^^^ 0x100 = w0Of op (if m = .byte then .burst else .byte) imm := by
  have h : (0x100 : Word) = w0Of 0 .burst 0 := by decide
  rw [h]
  unfold w0Of
  rw [BitVec.xor_append, BitVec.xor_append, BitVec.xor_append, BitVec.xor_append]
  cases m <;> simp <;> rfl

/-- Settles O4: the descriptor is its request's encoding, in which bit 8 of `W0` is `MODE` alone. -/
theorem modeBitChangesModeOnly : Obligations.ModeBitChangesModeOnly := by
  intro d i h
  obtain rfl := encodeOfDecode d i h
  have hflip : ({ encode i with w0 := (encode i).w0 ^^^ 0x100 } : Desc) =
      encode (withMode (if modeOf i = .byte then .burst else .byte) i) := by
    cases i <;> exact congrArg (Desc.mk · _ _ _) (w0Of_xor_mode _ _ _)
  rw [hflip]
  exact decodeOfEncode _

end Sys2Proof

/-! ## The script format (30 R120 to R124) -/

namespace Sys2Proof.Machine

/-- An entry's bytes are those before the rest, and what follows the rest does not matter. -/
theorem parseEntry_eq_some {bs rest : List Byte} {e : ScriptEntry} (h : parseEntry bs = some (e, rest)) :
    bs.length = e.byteLen + rest.length ∧ ∀ after, parseEntry (bs ++ after) = some (e, rest ++ after) := by
  unfold parseEntry at h
  split at h
  · rename_i opc argc tail
    dsimp only at h
    split at h
    · cases h
    · rename_i hlen
      have hle : argCount argc ≤ tail.length := Nat.not_lt.1 hlen
      split at h
      · rename_i hd
        split at h
        · rename_i d tail' hdrop
          have hl := congrArg List.length hdrop
          cases h
          simp only [List.length_drop, List.length_cons] at hl
          refine ⟨by simp [ScriptEntry.byteLen]; omega, fun after => ?_⟩
          simp [parseEntry, List.take_append_of_le_length hle, List.drop_append_of_le_length hle, hdrop, hd]
          omega
        · cases h
      · rename_i hd
        cases h
        refine ⟨by simp [ScriptEntry.byteLen]; omega, fun after => ?_⟩
        simp [parseEntry, List.take_append_of_le_length hle, List.drop_append_of_le_length hle, hd]
        omega
  · cases h

/-- So it is of entries in turn, each parsed from what the one before it left. -/
theorem parseEntries_eq_some {n : Nat} {bs rest : List Byte} {es : List ScriptEntry}
    (h : parseEntries n bs = some (es, rest)) :
    bs.length = (es.map ScriptEntry.byteLen).sum + rest.length ∧
      ∀ after, parseEntries n (bs ++ after) = some (es, rest ++ after) := by
  induction n generalizing bs es with
  | zero =>
    cases h
    exact ⟨by simp, fun _ => rfl⟩
  | succ n ih =>
    unfold parseEntries at h
    split at h
    · cases h
    · rename_i e tail he
      split at h
      · cases h
      · rename_i es' rest' hes
        cases h
        obtain ⟨hlen, happend⟩ := parseEntry_eq_some he
        obtain ⟨hlens, happends⟩ := ih hes
        refine ⟨by simp; omega, fun after => ?_⟩
        simp [parseEntries, happend after, happends after]

theorem parseScript_eq_some {sc rest : List Byte} {es : List ScriptEntry} (h : parseScript sc = some (es, rest)) :
    sc.length = 1 + (es.map ScriptEntry.byteLen).sum + rest.length ∧
      ∀ after, parseScript (sc ++ after) = some (es, rest ++ after) := by
  cases sc with
  | nil => cases h
  | cons count bs =>
    obtain ⟨hlen, happend⟩ := parseEntries_eq_some h
    exact ⟨by rw [List.length_cons]; omega, happend⟩

theorem scriptEntries_of_parse {sc rest : List Byte} {es : List ScriptEntry} (h : parseScript sc = some (es, rest)) :
    scriptEntries sc = es := by
  simp [scriptEntries, h]

/-- Settles O53: entry by entry, the bytes consumed are `byteLen` and the bytes after them are left as they are. -/
theorem scriptLenConsumed : Obligations.ScriptLenConsumed := by
  refine ⟨fun sc after es h => ?_, fun sc after es h => ?_⟩
  · rw [scriptLen, scriptEntries_of_parse h]
    exact (parseScript_eq_some h).1
  · exact scriptEntries_of_parse ((parseScript_eq_some h).2 after)

end Sys2Proof.Machine

/-! ## The assembler (30 R125) -/

namespace Sys2Proof.Machine

theorem field_eq_some_iff {w n : Nat} {b : BitVec w} : field w n = some b ↔ n = b.toNat := by
  unfold field
  split
  · rename_i hlt
    rw [Option.some_inj, ← BitVec.toNat_inj, BitVec.toNat_ofNat, Nat.mod_eq_of_lt hlt]
  · have := b.isLt
    simp only [reduceCtorEq, false_iff]
    omega

theorem field_toNat {w : Nat} (b : BitVec w) : field w b.toNat = some b := field_eq_some_iff.2 rfl

theorem field_eq_none_iff {w n : Nat} : field w n = none ↔ 2 ^ w ≤ n := by
  simp [field]

/-- The forms of an accepted line, by the number of operands; only INVERT turns its number into a flag. -/
theorem assemble_eq_some {mnemonic : String} {m : Mode} {operands : List Nat} {i : Instr}
    (h : assemble mnemonic m operands = some i) :
    mnemonic = mnemonicOf i ∧ m = modeOf i ∧ operands = operandsOf i := by
  unfold assemble at h
  split at h <;>
    simp only [Option.bind_eq_bind, Option.pure_def, Option.bind_eq_some_iff, field_eq_some_iff,
      Option.some.injEq, reduceCtorEq] at h
  case h_1 | h_2 | h_3 =>
    obtain rfl := h
    exact ⟨rfl, rfl, rfl⟩
  case h_4 | h_12 | h_13 | h_15 =>
    obtain ⟨a, rfl, rfl⟩ := h
    exact ⟨rfl, rfl, rfl⟩
  case h_14 =>
    obtain ⟨a, rfl, rfl⟩ := h
    have hbit : ∀ a : BitVec 1, a.toNat = (a == 1).toNat := by decide
    exact ⟨rfl, rfl, congrArg (fun n => [n]) (hbit a)⟩
  case h_5 =>
    obtain ⟨a, rfl, l, rfl, rfl⟩ := h
    exact ⟨rfl, rfl, rfl⟩
  case h_7 | h_16 =>
    obtain ⟨a, rfl, b, rfl, c, rfl, rfl⟩ := h
    exact ⟨rfl, rfl, rfl⟩
  case h_6 =>
    obtain ⟨a, rfl, b, rfl, c, rfl, d, rfl, rfl⟩ := h
    exact ⟨rfl, rfl, rfl⟩
  case h_8 | h_9 | h_10 =>
    obtain ⟨a, rfl, b, rfl, c, rfl, d, rfl, e, rfl, rfl⟩ := h
    exact ⟨rfl, rfl, rfl⟩
  case h_11 =>
    obtain ⟨a, rfl, b, rfl, c, rfl, d, rfl, e, rfl, f, rfl, rfl⟩ := h
    exact ⟨rfl, rfl, rfl⟩

theorem assemble_operandsOf (i : Instr) : assemble (mnemonicOf i) (modeOf i) (operandsOf i) = some i := by
  cases i with
  | invert m on => cases on <;> rfl
  | _ => simp [assemble, mnemonicOf, modeOf, operandsOf, field_toNat]

/-- Settles O46: a field takes exactly the numbers below `2 ^ w`, so a request's operands assemble to it and nothing else
does. -/
theorem assemblerChecksFields : Obligations.AssemblerChecksFields := by
  refine ⟨assemble_operandsOf, fun _ _ _ _ => assemble_eq_some, fun m a l h => ?_, fun m on h => ?_⟩
  · rcases h with h | h
    · simp [assemble, field_eq_none_iff.2 h]
    · cases ha : field 32 a <;> simp [assemble, ha, field_eq_none_iff.2 h]
  · simp [assemble, field_eq_none_iff.2 (show 2 ^ 1 ≤ on from h)]

end Sys2Proof.Machine

/-! ## The latched descriptor (30 R113, R114, R126) -/

namespace Sys2Proof.Machine

/-- Settles O5: the decoder evaluated at each descriptor. -/
theorem specWordsDecode : Obligations.SpecWordsDecode := by
  unfold Obligations.SpecWordsDecode
  decide

theorem step_latched {s : State} {i : Instr} (hs : s.Latched) (hsched : s.sched = []) (hdec : decode s.lreq = .ok i) :
    step s = exec i s := by
  obtain ⟨hseq, htodo, -, -, hhung⟩ := hs
  simp [step_quiet s hsched, quietTurn, hseq, htodo, hhung, execLatched, State.fetch, hdec]

theorem decodeTableWord_eq_some_iff {nbits w : Nat} {i : Instr} :
    decodeTableWord nbits w = some i ↔ decode (Desc.ofBits nbits w) = .ok i := by
  unfold decodeTableWord
  cases decode (Desc.ofBits nbits w) <;> simp

/-- Settles O6: an empty schedule runs the latched request whole, a block's turn starts its plan, and a placed descriptor is
a latched one. -/
theorem stepRunsDecodedRequest : Obligations.StepRunsDecodedRequest := by
  refine ⟨fun s i => step_latched, fun s i rest hs hsched hdec => ?_, fun s nbits w i hdec => ?_⟩
  · have hplan : plan i { s with sched := rest } = plan i s := by cases i <;> rfl
    rw [step_block s rest hsched, ← hplan]
    exact blockTurn_latched hs hdec
  · exact step_latched ⟨rfl, rfl, rfl, rfl, rfl⟩ rfl (decodeTableWord_eq_some_iff.1 hdec)

/-! ### SUBMIT (30 R113, R126) -/

/-- With nobody scheduled, the next write of an idle block's host takes effect (10 R31). -/
theorem step_quietWrite {s : State} {more : List HostOp} {off : Nat} {v : Word} (hidle : s.seq = .idle)
    (hsched : s.sched = []) (hlt : off < 0x40) (hdvd : off % 4 = 0)
    (hhost : s.host = .writeReg (s.cfg.val.blockBase + BitVec.ofNat 32 off) 32 v :: more) :
    step s = .next (State.writeReg { s with host := more } off v) := by
  rw [step_quiet s hsched]
  simp [quietTurn, hidle, hostTurn, hostAccess, hhost, windowOffset_base_add _ hlt hdvd]

/-- `s` in the middle of SUBMIT: `REQ` as written so far, and the accesses the host has still to make. -/
def State.submitting (s : State) (req : Desc) (host : List HostOp) : State := { s with req := req, host := host }

section Submitting

variable {s : State} (hidle : s.seq = .idle) (hsched : s.sched = []) (req : Desc) (v : Word) (more : List HostOp)
include hidle hsched

theorem step_submitting {off : Nat} (hlt : off < 0x40) (hdvd : off % 4 = 0) :
    step (s.submitting req (.writeReg (s.cfg.val.blockBase + BitVec.ofNat 32 off) 32 v :: more)) =
      .next ((s.submitting req more).writeReg off v) :=
  step_quietWrite (s := s.submitting req _) hidle hsched hlt hdvd rfl

theorem step_submitting_w1 : step (s.submitting req (.writeReg (s.cfg.val.blockBase + 4) 32 v :: more)) =
    .next (s.submitting { req with w1 := v } more) :=
  (step_submitting hidle hsched req v more (off := 0x04) (by decide) rfl).trans <| by
    simp [State.writeReg, State.submitting, hidle]

theorem step_submitting_w2 : step (s.submitting req (.writeReg (s.cfg.val.blockBase + 8) 32 v :: more)) =
    .next (s.submitting { req with w2 := v } more) :=
  (step_submitting hidle hsched req v more (off := 0x08) (by decide) rfl).trans <| by
    simp [State.writeReg, State.submitting, hidle]

theorem step_submitting_w3 : step (s.submitting req (.writeReg (s.cfg.val.blockBase + 12) 32 v :: more)) =
    .next (s.submitting { req with w3 := v } more) :=
  (step_submitting hidle hsched req v more (off := 0x0C) (by decide) rfl).trans <| by
    simp [State.writeReg, State.submitting, hidle]

theorem step_submitting_w0 : step (s.submitting req (.writeReg s.cfg.val.blockBase 32 v :: more)) =
    .next ((s.submitting req more).doorbell v) := by
  have h := step_submitting hidle hsched req v more (off := 0x00) (by decide) rfl
  rw [show BitVec.ofNat 32 0x00 = 0#32 from rfl, BitVec.add_zero] at h
  rw [h]
  simp [State.writeReg, State.submitting, hidle]

end Submitting

/-- Settles O45: the first three writes fill `REQ[1..3]`, and the doorbell latches the whole of it. -/
theorem submitLatchesDescriptor : Obligations.SubmitLatchesDescriptor := by
  intro s d more hidle hsched hhost
  have hs : s = s.submitting s.req (submit s.cfg.val.blockBase d ++ more) := by
    rw [← hhost]
    rfl
  have hw1 (rest) := run_succ_of_step (step_submitting_w1 hidle hsched s.req d.w1 rest) 3
  have hw2 (rest) := run_succ_of_step (step_submitting_w2 hidle hsched { s.req with w1 := d.w1 } d.w2 rest) 2
  have hw3 (rest) :=
    run_succ_of_step (step_submitting_w3 hidle hsched { d with w0 := s.req.w0, w3 := s.req.w3 } d.w3 rest) 1
  have hw0 := run_succ_of_step (step_submitting_w0 hidle hsched { d with w0 := s.req.w0 } d.w0 more) 0
  calc core.run 4 s
    _ = core.run 4 (s.submitting s.req (submit s.cfg.val.blockBase d ++ more)) := congrArg (core.run 4) hs
    _ = _ := (hw1 _).trans ((hw2 _).trans ((hw3 _).trans hw0))

end Sys2Proof.Machine

/-! ## Requests whose frame ends in an error (40 R141, R148; 60 R251) -/

namespace Sys2Proof.Machine

/-- `s` once the bytes `l` have been sent and the frame offered after them has ended in an error (40 R141). -/
def State.sentToError (s : State) (l : List Byte) : State :=
  { s with
    trace := s.trace ++ l.map (Event.byte s.cs s.dc)
    bus := s.bus.drop (l.length + 1)
    draws := s.draws + (l.length + 1) }

theorem popFrame_sent (s : State) (l : List Byte) : (s.sent l).popFrame = s.sentToError l := by
  simp [State.popFrame, State.sent, State.sentToError, Nat.add_assoc]

theorem popFrame_eq_sentToError (s : State) : s.popFrame = s.sentToError [] := by
  rw [← popFrame_sent, sent_nil]

theorem frame_sent (s : State) (l : List Byte) (k : Nat) : (s.sent l).frame k = s.frame (l.length + k) := by
  simp [State.frame, State.sent, Nat.add_assoc]

/-- The step list `ops` takes `s`, whatever follows it in the list, to fault entry from `t` with `TRANSPORT`. -/
def State.Fails (s : State) (ops : List Micro) (t : State) : Prop :=
  ∀ rest, (s.withTodo (ops ++ rest)).Reaches (t.raise .transport)

theorem State.Fails.append {s t : State} {ops : List Micro} (h : s.Fails ops t) (ops' : List Micro) :
    s.Fails (ops ++ ops') t := by
  intro rest
  rw [List.append_assoc]
  exact h _

theorem State.Runs.fails {s t u : State} {ops ops' : List Micro} (h : s.Runs ops t) (h' : t.Fails ops' u) :
    s.Fails (ops ++ ops') u := by
  intro rest
  rw [List.append_assoc]
  exact (h.reaches _).trans (h' rest)

/-- A plan whose steps fail ends the request in fault entry (60 R258). -/
theorem exec_of_fails {s t : State} {i : Instr} {ops : List Micro} (hplan : plan i s = .ok ops) (h : s.Fails ops t) :
    exec i s = .next (t.raise .transport) := by
  have hreach := h []
  rw [List.append_nil] at hreach
  rw [exec_eq_request, request_eq, hplan]
  exact congrArg _ (hreach.finish_eq (canStep_raise t .transport))

theorem fails_tx {s : State} (hs : s.Running) {src : Src} {k : Nat} (hin : src.InRange s.cfg.val k)
    (herr : s.frame 0 = .err) : s.Fails [.tx src k] (s.sentToError []) := by
  intro rest
  rw [← popFrame_eq_sentToError]
  exact .of_blockStep ((blockStep_withTodo_cons hs (op := .tx src k) hin rest).trans
    (tx_err (s.withTodo rest) _ id herr))

/-- A command byte (40 R144). -/
theorem fails_command {s : State} (hs : s.Running) (opc : Byte) (herr : s.frame 0 = .err) :
    s.Fails (command opc) ((s.setDC false).sentToError []) :=
  have hin : Src.InRange s.cfg.val (.bytes [opc]) 0 := Nat.one_pos
  (runs_setDC hs false).fails (fails_tx (s := s.setDC false) hs hin herr)

/-- A step of the DMA engine whose frame completes (40 R147). -/
theorem blockStep_inBurst_ok {s : State} (hs : s.Running) {src : Src} {n i : Nat} (hi : i < n)
    (hin : src.InRange s.cfg.val i) (hok : s.FramesOk 1) (ops : List Micro) :
    (s.inBurst src n i ops).blockStep = (s.sent [s.srcByte src i]).inBurst src n (i + 1) ops := by
  rw [blockStep_inBurst hs fun _ => hin, State.dmaStep, if_pos hi, tx_eq_sent (s := s.inBurst src n i ops) _ _ hok]
  cases src <;> rfl

/-- A step of the DMA engine whose frame ends in an error (40 R148). -/
theorem blockStep_inBurst_err {s : State} (hs : s.Running) {src : Src} {n i : Nat} (hi : i < n)
    (hin : src.InRange s.cfg.val i) (herr : s.frame 0 = .err) (ops : List Micro) :
    (s.inBurst src n i ops).blockStep = s.popFrame.raise .transport := by
  rw [blockStep_inBurst hs fun _ => hin, State.dmaStep, if_pos hi]
  exact tx_err (s.inBurst src n i ops) _ _ herr

/-- The DMA engine sends `k` of the bytes its burst has left. -/
theorem inBurst_sends {s : State} (hs : s.Running) {src : Src} {n i k : Nat} (hn : i + k ≤ n)
    (hin : ∀ j, j < n → src.InRange s.cfg.val j) (hok : s.FramesOk k) (ops : List Micro) :
    (s.inBurst src n i ops).Reaches ((s.sent ((List.range' i k).map (s.srcByte src))).inBurst src n (i + k) ops) := by
  induction k generalizing s i with
  | zero => exact ⟨0, by simp⟩
  | succ k ih =>
    rw [Nat.add_comm k 1] at hok
    have hbyte := blockStep_inBurst_ok (n := n) hs (by omega) (hin i (by omega)) (framesOk_mono hok (by omega)) ops
    have htail := ih (s := s.sent [s.srcByte src i]) (i := i + 1) hs (by omega) hin (framesOk_sent hok)
    rw [srcByte_sent, ← sent_cons, Nat.add_right_comm] at htail
    exact (State.Reaches.of_blockStep hbyte).trans htail

/-- `Burst` whose frame `k` ends in an error: the bytes before it have been sent, and `DONE` is as the burst's start has
left it (40 R146, R148). -/
theorem fails_burst {s : State} (hs : s.Running) {src : Src} {n k : Nat} (m : Mode)
    (hin : ∀ j, j < n → src.InRange s.cfg.val j) (hk : k < n) (hok : s.FramesOk k) (herr : s.frame k = .err) :
    s.Fails (burst src n m)
      { s.sentToError ((List.range k).map (s.srcByte src)) with done := m == .byte && s.done } := by
  have herr' : (s.sent ((List.range k).map (s.srcByte src))).frame 0 = .err := by simpa [frame_sent] using herr
  unfold burst
  rw [if_neg (by omega), ← popFrame_sent]
  cases m with
  | byte =>
    obtain ⟨j, rfl⟩ : ∃ j, n = k + 1 + j := ⟨n - k - 1, by omega⟩
    have hsent := runs_txs hs (src := src) (List.range k) (fun i hi => hin i (by have := List.mem_range.1 hi; omega))
      (by simpa using hok)
    have hfails := hsent.fails (fails_tx (s := s.sent ((List.range k).map (s.srcByte src))) hs (hin k hk) herr')
    rw [← popFrame_eq_sentToError] at hfails
    rw [List.range_add, List.range_succ, List.map_append, List.map_append]
    exact hfails.append _
  | burst =>
    intro rest
    have hstart := blockStep_withTodo_cons hs (op := .dma src n) ⟨by omega, hin⟩ rest
    have hsend := inBurst_sends (s := { s with done := false }) (i := 0) hs (by omega) hin hok rest
    rw [Nat.zero_add, ← List.range_eq_range'] at hsend
    have hfault := blockStep_inBurst_err (s := { s.sent ((List.range k).map (s.srcByte src)) with done := false }) hs hk
      (hin k hk) herr' rest
    refine ((State.Reaches.of_blockStep hstart).trans ?_).trans (.of_blockStep hfault)
    cases src <;> exact hsend

end Sys2Proof.Machine

/-! ## The transport requests (40 R142 to R145) -/

namespace Sys2Proof

open Machine (modeBit imm8Bits)

/-- `W0` written as its fields, shifted and joined (30 R100). -/
theorem w0Of_eq_or (op : Byte) (m : Mode) (imm : Byte) :
    w0Of op m imm = op.setWidth 32 ||| modeBit m ||| imm8Bits imm := by
  refine BitVec.eq_of_getLsbD_eq fun i hi => ?_
  have hmode : modeBit m = (BitVec.ofBool (m == .burst)).setWidth 32 <<< 8 := by cases m <;> rfl
  simp only [w0Of, hmode, imm8Bits, BitVec.getLsbD_append, BitVec.getLsbD_or, BitVec.getLsbD_shiftLeft,
    BitVec.getLsbD_setWidth]
  grind

@[simp] theorem imm8Bits_zero : imm8Bits 0#8 = 0#32 := rfl

end Sys2Proof

namespace Sys2Proof.Machine

theorem framesOk_one {s : State} (h : s.frame 0 = .ok) : s.FramesOk 1 := by
  intro k hk
  rwa [Nat.lt_one_iff.1 hk]

theorem complete_eq {s : State} (htodo : s.todo = none) : s.complete = { s with seq := .idle } := by
  rw [State.complete, ← htodo]

theorem setCS_false_eq (s : State) : s.setCS false = { s with cs := false, trace := s.trace ++ s.lowEvents } := by
  cases hcs : s.cs <;> simp [State.setCS, State.lowEvents, hcs]

theorem setCS_true_eq (s : State) : s.setCS true = { s with cs := true, trace := s.trace ++ s.highEvents } := by
  cases hcs : s.cs <;> simp [State.setCS, State.highEvents, hcs]

/-- Settles O8: the one step is `SetCS(0)`, whose event depends on the level before. -/
theorem selectDrivesCsLow : Obligations.SelectDrivesCsLow := by
  intro m
  refine ⟨by simpa [encode, w0Of_eq_or] using decodeOfEncode (.select m), fun s hs => ?_⟩
  obtain ⟨-, htodo, -⟩ := id hs
  rw [exec_of_runs rfl (runs_setCS hs.running false), complete_eq (s := s.setCS false) htodo, setCS_false_eq]

/-- Settles O9: the one step is `SetCS(1)`. -/
theorem unselectDrivesCsHigh : Obligations.UnselectDrivesCsHigh := by
  intro m
  refine ⟨by simpa [encode, w0Of_eq_or] using decodeOfEncode (.unselect m), fun s hs => ?_⟩
  obtain ⟨-, htodo, -⟩ := id hs
  rw [exec_of_runs rfl (runs_setCS hs.running true), complete_eq (s := s.setCS true) htodo, setCS_true_eq]

/-- Settles O10: the command byte runs when its frame completes, and fails when it ends in an error. -/
theorem wrcmdSendsCommandByte : Obligations.WrcmdSendsCommandByte := by
  intro m opc
  refine ⟨by simpa [encode, w0Of_eq_or] using decodeOfEncode (.wrcmd m opc), fun s hs => ⟨fun hok => ?_, ?_⟩⟩
  · obtain ⟨-, htodo, -⟩ := id hs
    have hrun := runs_command hs.running opc (framesOk_one hok)
    rw [exec_of_runs rfl hrun, complete_eq (s := (s.setDC false).sent [opc]) htodo]
    rfl
  · intro herr
    rw [exec_of_fails rfl (fails_command hs.running opc herr)]
    simp [State.sentToError, State.setDC]

/-! ### WRDATA -/

/-- The steps of WRDATA, once its range is inside host memory (40 R145). -/
theorem plan_wrdata_ok {s : State} {addr len : Word} (m : Mode) (hbuf : bufOK s.cfg.val addr.toNat len.toNat = true) :
    plan (.wrdata m addr len) s = .ok (.setDC true :: burst (.mem addr.toNat) len.toNat m) := if_pos hbuf

theorem plan_wrdata_error {s : State} {addr len : Word} (m : Mode)
    (hbuf : bufOK s.cfg.val addr.toNat len.toNat = false) : plan (.wrdata m addr len) s = .error .buffer :=
  if_neg (by simp [hbuf])

theorem map_srcByte_mem (s : State) (addr n : Nat) :
    (List.range n).map (s.srcByte (.mem addr)) = s.memBytes addr n := rfl

@[simp] theorem length_memBytes (s : State) (addr n : Nat) : (s.memBytes addr n).length = n := by simp [State.memBytes]

/-- `s` after a burst of `n` bytes of host memory from `addr` on in mode `m` (40 R145). -/
def State.bufferSent (s : State) (m : Mode) (addr n : Nat) : State :=
  { s.sent (s.memBytes addr n) with done := if n = 0 then s.done else s.doneAfter m }

/-- A burst of a buffer in host memory, which may be empty: then it is no step. -/
theorem runs_burst_mem {s : State} (hs : s.Running) (m : Mode) {addr n : Nat} (hbuf : bufOK s.cfg.val addr n = true)
    (hok : s.FramesOk n) :
    s.Runs (burst (.mem addr) n m) (s.bufferSent m addr n) := by
  rcases Nat.eq_zero_or_pos n with rfl | hn
  · simpa [burst, State.bufferSent, State.memBytes] using State.Runs.nil hs
  · have hne : n ≠ 0 := by omega
    rw [State.bufferSent, if_neg hne]
    exact runs_burst hs m hne (bufOK_inRange hbuf) hok

/-- Settles O11: `SetDC(1)` and one burst, which runs while its frames complete and fails with the first that ends in an
error; in burst mode the second step starts the DMA engine. -/
theorem wrdataSendsBuffer : Obligations.WrdataSendsBuffer := by
  intro m addr len
  refine ⟨by simpa [encode, w0Of_eq_or] using decodeOfEncode (.wrdata m addr len), fun s hs => ⟨?_, ?_, ?_, ?_⟩⟩
  · intro hbuf hok
    obtain ⟨-, htodo, -⟩ := id hs
    have hrun := (runs_setDC hs.running true).cons (runs_burst_mem (s := s.setDC true) hs.running m hbuf hok)
    have hlen : len = 0#32 ↔ len.toNat = 0 := by simp [← BitVec.toNat_inj]
    rw [exec_of_runs (plan_wrdata_ok m hbuf) hrun,
      complete_eq (s := (s.setDC true).bufferSent m addr.toNat len.toNat) htodo]
    simp [State.bufferSent, State.sent, State.setDC, State.doneAfter, State.memBytes, dataEvents, hlen]
  · rintro rfl hbuf hlen
    have hlen' : len.toNat ≠ 0 := fun h => hlen (BitVec.eq_of_toNat_eq h)
    have hburst : burst (.mem addr.toNat) len.toNat .burst = [.dma (.mem addr.toNat) len.toNat] := if_neg hlen'
    have hlevel := blockStep_withTodo_cons hs.running (op := .setDC true) trivial [.dma (.mem addr.toNat) len.toNat]
    have hstart := blockStep_withTodo_cons (s := s.setDC true) hs.running (op := .dma (.mem addr.toNat) len.toNat)
      ⟨Nat.pos_of_ne_zero hlen', bufOK_inRange hbuf⟩ []
    rw [plan_wrdata_ok _ hbuf, hburst, runBlock_succ, runBlock_succ, runBlock_zero]
    exact (congrArg State.blockStep hlevel).trans hstart
  · intro hbuf
    rw [exec_eq_request, plan_wrdata_error m hbuf, request_error]
  · intro k hbuf hk hok herr
    have hfails := (runs_setDC hs.running true).fails
      (fails_burst (s := s.setDC true) hs.running m (bufOK_inRange hbuf) hk hok herr)
    rw [exec_of_fails (plan_wrdata_ok m hbuf) hfails]
    simp [State.sentToError, State.setDC, map_srcByte_mem, dataEvents, State.memBytes]

/-! ### The DMA engine (40 R147, R148) -/

theorem tx_done (s : State) (b : Byte) {f : State → State} (hf : ∀ u : State, (f u).done = u.done) :
    (s.tx b f).done = s.done := by
  rcases tx_cases s b f with ⟨-, h⟩ | ⟨-, h⟩ | ⟨-, h⟩ <;> simp [h, hf]

/-- A byte of a burst leaves `DONE` as it is (40 R148). -/
theorem dmaStep_done {s : State} {src : Src} {n i : Nat} (hi : i < n) : (s.dmaStep src n i).done = s.done := by
  rw [State.dmaStep, if_pos hi]
  exact tx_done s _ fun _ => rfl

/-- No step of the sequencer sets `DONE` (40 R147). -/
theorem seqStep_done_eq_true {s : State} {op : Micro} {rest : List Micro} (h : (s.seqStep op rest).done = true) :
    s.done = true := by
  cases op with
  | dma src n => cases h
  | tx src k => rwa [← tx_done { s with todo := some rest } (s.srcByte src k) (f := id) fun _ => rfl]
  | strScan t x y n =>
    rcases strScanStep_cases { s with todo := some rest } rest t x y n with hs | ⟨ops, -, hs⟩
    · rwa [show s.seqStep (.strScan t x y n) rest = _ from hs] at h
    · rwa [show s.seqStep (.strScan t x y n) rest = _ from hs] at h
  | strDraw t len i x y a =>
    obtain ⟨ops, -, hs⟩ := strDrawStep_cases { s with todo := some rest } rest t len i x y a
    rwa [show s.seqStep (.strDraw t len i x y a) rest = _ from hs] at h
  | _ => exact h

/-- Settles O31: the engine's step by the outcome of its frame; of the block's steps only the one at the end of a burst
sets `DONE`. -/
theorem dmaEngineSteps : Obligations.DmaEngineSteps := by
  intro s hcan
  have hstep {src n i} (hd : s.dma = .active src n i) : s.blockStep = s.dmaStep src n i := by
    simp [State.blockStep, hcan, hd]
  refine ⟨fun src n i hd hi hok => ?_, fun src n hd => ?_, fun src n i hd hi herr => ?_, fun hdone hdone' => ?_⟩
  · rw [hstep hd, State.dmaStep, if_pos hi, tx_eq_sent _ _ (framesOk_one hok)]
    rfl
  · rw [hstep hd, State.dmaStep, if_neg (Nat.lt_irrefl n)]
  · rw [hstep hd, State.dmaStep, if_pos hi, tx_err _ _ _ herr, popFrame_eq_sentToError]
    simp [State.sentToError]
  · rcases blockStep_cases s hcan with ⟨src, n, i, hd, hs⟩ | ⟨-, -, hs⟩ | ⟨-, -, -, hs⟩ | ⟨-, -, op, rest, -, hs⟩
    · refine ⟨src, n, i, hd, ?_⟩
      by_contra hi
      rw [hs, dmaStep_done (by omega)] at hdone'
      simp [hdone'] at hdone
    · simp [hs, hdone] at hdone'
    · simp [hs, hdone] at hdone'
    · rw [hs] at hdone'
      simp [seqStep_done_eq_true hdone'] at hdone

end Sys2Proof.Machine

/-! ## Byte mode and burst mode (40 R146, R149) -/

namespace Sys2Proof.Machine

/-! ### A burst-mode step list as the byte-mode one -/

/-- The operands of a WRITE_STRING, in byte mode. -/
def Text.inBytes (t : Text) : Text := { t with mode := .byte }

/-- What byte mode has in place of an entry: a DMA burst becomes its single bytes (40 R146). -/
def Micro.inBytes : Micro → List Micro
  | .dma src n => (List.range n).map (.tx src)
  | .strScan t x y n => [.strScan t.inBytes x y n]
  | .strDraw t len i x y a => [.strDraw t.inBytes len i x y a]
  | op => [op]

/-- What byte mode has in place of a step list. -/
def inBytes (ops : List Micro) : List Micro := ops.flatMap Micro.inBytes

@[simp] theorem inBytes_nil : inBytes [] = [] := rfl

@[simp] theorem inBytes_cons (op : Micro) (ops : List Micro) : inBytes (op :: ops) = op.inBytes ++ inBytes ops := rfl

@[simp] theorem inBytes_append (ops ops' : List Micro) : inBytes (ops ++ ops') = inBytes ops ++ inBytes ops' :=
  List.flatMap_append

theorem inBytes_flatMap {α : Type} (l : List α) (f : α → List Micro) :
    inBytes (l.flatMap f) = l.flatMap fun a => inBytes (f a) :=
  List.flatMap_assoc

@[simp] theorem inBytes_command (opc : Byte) : inBytes (command opc) = command opc := rfl

@[simp] theorem inBytes_burst (src : Src) (n : Nat) (m : Mode) : inBytes (burst src n m) = burst src n .byte := by
  unfold burst
  split
  · rfl
  · cases m with
    | byte => exact (List.flatMap_map ..).trans List.map_eq_flatMap.symm
    | burst => simp [Micro.inBytes]

@[simp] theorem inBytes_burstBytes (l : List Byte) (m : Mode) : inBytes (burstBytes l m) = burstBytes l .byte :=
  inBytes_burst _ _ m

@[simp] theorem inBytes_setWindowSteps (c : Config) (w : Window) (m : Mode) :
    inBytes (setWindowSteps c w m) = setWindowSteps c w .byte := by
  simp [setWindowSteps, Micro.inBytes]

@[simp] theorem inBytes_pixelSteps (ps : List Half) (m : Mode) : inBytes (pixelSteps ps m) = pixelSteps ps .byte := by
  simp [pixelSteps, inBytes_flatMap]

@[simp] theorem inBytes_glyphSteps (c : Config) (t : Text) (ch : Byte) (x y : Nat) :
    inBytes (glyphSteps c t ch x y) = glyphSteps c t.inBytes ch x y := by
  simp [glyphSteps, Micro.inBytes, Text.inBytes]

@[simp] theorem inBytes_bracketed (ops : List Micro) : inBytes (bracketed ops) = bracketed (inBytes ops) := by
  simp [bracketed, Micro.inBytes]

@[simp] theorem inBytes_lineFill (color : Half) (w : Nat) : inBytes (lineFill color w) = lineFill color w := by
  simp [lineFill, inBytes_flatMap, Micro.inBytes]

@[simp] theorem inBytes_paintSteps (c : Config) (m : Mode) (x y w h : Nat) (before pixels : List Micro) :
    inBytes (paintSteps c m x y w h before pixels) = paintSteps c .byte x y w h (inBytes before) (inBytes pixels) := by
  simp [paintSteps, Micro.inBytes]

@[simp] theorem inBytes_fillSteps (c : Config) (m : Mode) (x y w h : Nat) (color : Half) :
    inBytes (fillSteps c m x y w h color) = fillSteps c .byte x y w h color := by
  unfold fillSteps
  split <;> simp

@[simp] theorem inBytes_fillFastSteps (c : Config) (m : Mode) (x y w h : Nat) (color : Half) :
    inBytes (fillFastSteps c m x y w h color) = fillFastSteps c .byte x y w h color := by
  have hlines (k n : Nat) : inBytes (List.replicate k (burst .lineBuf n m)).flatten =
      (List.replicate k (burst .lineBuf n .byte)).flatten := by
    induction k with
    | zero => rfl
    | succ k ih => simp [List.replicate_succ, ih]
  unfold fillFastSteps
  split <;> simp [hlines]

@[simp] theorem inBytes_entrySteps (m : Mode) (e : ScriptEntry) : inBytes (entrySteps m e) = entrySteps .byte e := by
  unfold entrySteps
  cases e.delay <;> cases e.args.isEmpty <;> simp [Micro.inBytes]

@[simp] theorem inBytes_scriptSteps (m : Mode) (script : List Byte) :
    inBytes (scriptSteps m script) = scriptSteps .byte script := by
  simp [scriptSteps, inBytes_flatMap]

/-- The same request's plan in byte mode: the same fault, or the same steps in bytes. -/
def Plan.inBytes (p : Plan) : Plan := p.map Machine.inBytes

@[simp] theorem Plan.inBytes_ok (ops : List Micro) : Plan.inBytes (.ok ops) = .ok (Machine.inBytes ops) := rfl

@[simp] theorem Plan.inBytes_error (c : FaultCause) : Plan.inBytes (.error c) = .error c := rfl

@[simp] theorem whenReady_inBytes (s : State) (p : Plan) : (s.whenReady p).inBytes = s.whenReady p.inBytes := by
  unfold State.whenReady
  split <;> rfl

/-- The checks of a request do not read `MODE`, and its byte-mode step list is the other's in bytes. -/
theorem plan_byte (i : Instr) (s : State) : plan (withMode .byte i) s = (plan i s).inBytes := by
  cases i with
  | select | unselect | wrcmd | color565 => rfl
  | wrdata m addr len =>
    simp only [plan, withMode, planWrdata]
    split <;> simp [Micro.inBytes]
  | setwin m x0 y0 x1 y1 =>
    simp only [plan, withMode, planSetwin, whenReady_inBytes]
    split <;> simp
  | init m => simp [plan, withMode, planInit, resetPulse, Micro.inBytes, inBytes_flatMap]
  | drawPixel m x y color =>
    simp only [plan, withMode, planDrawPixel, whenReady_inBytes]
    split <;> simp
  | fillRect m x y w h color => simp [plan, withMode, planFillRect]
  | fillRectFast m x y w h color => simp [plan, withMode, planFillRectFast]
  | drawImage m x y w h addr =>
    simp only [plan, withMode, planDrawImage, whenReady_inBytes]
    split
    · rfl
    · split
      · rfl
      · split
        · rfl
        · split <;> simp
  | writeString m f x y fg bg addr =>
    simp only [plan, withMode, planWriteString, whenReady_inBytes]
    split <;> rfl
  | fillScreen m color => simp [plan, withMode, planFillScreen]
  | fillScreenFast m color => simp [plan, withMode, planFillScreenFast]
  | invert m on => simp [plan, withMode, planInvert]
  | setGamma m curve => simp [plan, withMode, planSetGamma, Micro.inBytes]

/-! ### The byte-mode run keeps step with the other -/

/-- What the DMA engine has still to send, byte by byte. -/
def Dma.inBytes : Dma → List Micro
  | .idle => []
  | .active src n i => (List.range' i (n - i)).map (.tx src)

/-- `s` with nothing of a mode in it: `DONE` and the step list as given, the DMA engine idle. -/
def State.modeless (s : State) (done : Bool) (ops : Option (List Micro)) : State :=
  { s with done := done, dma := .idle, todo := ops }

/-- The rest of the request in byte mode: the burst in flight, then the step list. -/
def State.restInBytes (s : State) : Option (List Micro) := s.todo.map (s.dma.inBytes ++ inBytes ·)

theorem restInBytes_of_idle {s : State} (hd : s.dma = .idle) {ops : List Micro} (hl : s.todo = some ops) :
    s.restInBytes = some (inBytes ops) := by
  simp [State.restInBytes, hd, hl, Dma.inBytes]

theorem restInBytes_of_active {s : State} {src : Src} {n i : Nat} (hd : s.dma = .active src n i) {ops : List Micro}
    (hl : s.todo = some ops) : s.restInBytes = some ((List.range' i (n - i)).map (.tx src) ++ inBytes ops) := by
  simp [State.restInBytes, hd, hl, Dma.inBytes]

/-- `t` is where the byte-mode run is when a run in any mode is at `s`: the two differ in `DONE`, the DMA engine and the
step list only, and unless a frame hangs both have the same steps left. -/
def State.ByteTwin (s t : State) : Prop :=
  ∃ done ops, t = s.modeless done ops ∧ (s.hung = false → ops = s.restInBytes)

theorem byteTwin_of_idle {s : State} (hd : s.dma = .idle) {ops : List Micro} (hl : s.todo = some ops) (done : Bool) :
    s.ByteTwin (s.modeless done (some (inBytes ops))) :=
  ⟨done, _, rfl, fun _ => (restInBytes_of_idle hd hl).symm⟩

theorem byteTwin_of_active {s : State} {src : Src} {n i : Nat} (hd : s.dma = .active src n i) {ops : List Micro}
    (hl : s.todo = some ops) (done : Bool) :
    s.ByteTwin (s.modeless done (some ((List.range' i (n - i)).map (.tx src) ++ inBytes ops))) :=
  ⟨done, _, rfl, fun _ => (restInBytes_of_active hd hl).symm⟩

theorem srcByte_modeless (s : State) (done : Bool) (ops : Option (List Micro)) (src : Src) (k : Nat) :
    (s.modeless done ops).srcByte src k = s.srcByte src k := by
  cases src <;> rfl

/-- Fault entry leaves nothing of the mode but `DONE`. -/
theorem raise_byteTwin (s : State) (done : Bool) (ops : Option (List Micro)) (c : FaultCause) :
    (s.raise c).ByteTwin ((s.modeless done ops).raise c) :=
  ⟨done, none, rfl, fun _ => rfl⟩

/-- One frame, whichever agent sends it: both modes send the same byte. -/
theorem tx_byteTwin (s : State) (src : Src) (k : Nat) (done : Bool) (ops : Option (List Micro)) {f : State → State}
    (hf : ∀ u : State, u.todo = s.todo → u.dma = s.dma → (f u).ByteTwin (u.modeless done ops)) :
    (s.tx (s.srcByte src k) f).ByteTwin ((s.modeless done ops).tx ((s.modeless done ops).srcByte src k) id) := by
  rw [srcByte_modeless]
  rcases tx_cases s (s.srcByte src k) f with ⟨ho, h⟩ | ⟨ho, h⟩ | ⟨ho, h⟩
  · rw [h, tx_ok (s.modeless done ops) _ id ho]
    exact hf _ rfl rfl
  · rw [h, tx_err (s.modeless done ops) _ id ho]
    exact raise_byteTwin s.popFrame done ops .transport
  · rw [h, tx_never (s.modeless done ops) _ id ho]
    exact ⟨done, ops, rfl, nofun⟩

/-- Two states with the same step list left, in bytes on one side. -/
theorem withTodo_byteTwin {s : State} (hd : s.dma = .idle) (done : Bool) (ops : Option (List Micro)) {l l' : List Micro}
    (hl : l' = inBytes l) : (s.withTodo l).ByteTwin ((s.modeless done ops).withTodo l') :=
  hl ▸ byteTwin_of_idle (s := s.withTodo l) hd rfl done

/-- A choice that both sides make alike. -/
theorem ite_byteTwin {p : Prop} [Decidable p] {inst : Decidable p} {s s' t t' : State} (h : s.ByteTwin t)
    (h' : s'.ByteTwin t') : (if p then s else s').ByteTwin (@ite State p inst t t') := by
  by_cases hp : p
  · rwa [if_pos hp, if_pos hp]
  · rwa [if_neg hp, if_neg hp]

/-- One step of `StrLen`: both modes read the same byte (43 R204). -/
theorem strScanStep_byteTwin {s : State} (hd : s.dma = .idle) (done : Bool) (ops : Option (List Micro))
    (rest : List Micro) (t : Text) (x y n : Nat) :
    (s.strScanStep rest t x y n).ByteTwin ((s.modeless done ops).strScanStep (inBytes rest) t.inBytes x y n) :=
  ite_byteTwin (raise_byteTwin s done ops .buffer)
    (ite_byteTwin (withTodo_byteTwin hd done ops rfl) (withTodo_byteTwin hd done ops rfl))

/-- One turn of WRITE_STRING's loop: both modes draw the same cell (43 R200). -/
theorem strDrawStep_byteTwin {s : State} (hd : s.dma = .idle) (done : Bool) (ops : Option (List Micro))
    (rest : List Micro) (t : Text) (len i x y : Nat) (a : Bool) :
    (s.strDrawStep rest t len i x y a).ByteTwin
      ((s.modeless done ops).strDrawStep (inBytes rest) t.inBytes len i x y a) := by
  have hrest : (s.withTodo rest).ByteTwin ((s.modeless done ops).withTodo (inBytes rest)) :=
    withTodo_byteTwin hd done ops rfl
  refine ite_byteTwin hrest (ite_byteTwin hrest (ite_byteTwin hrest
    (ite_byteTwin (withTodo_byteTwin hd done ops rfl) (withTodo_byteTwin hd done ops ?_))))
  rw [inBytes_append, inBytes_glyphSteps]
  rfl

/-- A step of the sequencer that starts no burst: both runs take it. -/
theorem seqStep_byteTwin {s : State} (hd : s.dma = .idle) (done : Bool) (ops : Option (List Micro)) {op op' : Micro}
    (hop : op.inBytes = [op']) (hdma : ∀ src n, op ≠ .dma src n) (rest : List Micro) :
    (s.seqStep op rest).ByteTwin ((s.modeless done ops).seqStep op' (inBytes rest)) := by
  cases op with
  | dma src n => exact absurd rfl (hdma src n)
  | tx src k =>
    cases hop
    exact tx_byteTwin { s with todo := some rest } src k done (some (inBytes rest)) fun u htodo hd' =>
      byteTwin_of_idle (hd'.trans hd) htodo done
  | strScan t x y n =>
    cases hop
    exact strScanStep_byteTwin (s := { s with todo := some rest }) hd done (some (inBytes rest)) rest t x y n
  | strDraw t len i x y a =>
    cases hop
    exact strDrawStep_byteTwin (s := { s with todo := some rest }) hd done (some (inBytes rest)) rest t len i x y a
  | _ =>
    cases hop
    exact byteTwin_of_idle (by exact hd) rfl done

/-- The DMA engine and the delay timer never run at once (60 R267). -/
abbrev State.OneAgent (s : State) : Prop := s.dma = .idle ∨ s.timer = .idle

theorem Micro.Becomes.oneAgent {c : Config} {op : Micro} {ops : List Micro} {d : Dma} {tm : Timer}
    (h : op.Becomes c ops d tm) : d = .idle ∨ tm = .idle := by
  cases h with
  | delay => exact .inl rfl
  | _ => exact .inr rfl

theorem State.OneAgent.blockStep {s : State} (h : s.OneAgent) : s.blockStep.OneAgent := by
  cases hcan : s.canStep with
  | false => rwa [blockStep_stuck s hcan]
  | true =>
    cases (blockStep_moves s hcan).2 with
    | ended _ _ hdma => exact .inl hdma
    | dma hd _ htimer _ => exact .inr (htimer.trans (h.resolve_left (by simp [hd])))
    | timer _ _ _ hdma _ => exact .inl hdma
    | entry _ _ _ hops _ => exact hops.oneAgent

/-- What stops the one run stops the other. -/
theorem State.ByteTwin.canStep_eq_false {s t : State} (h : s.ByteTwin t) (hadm : s.Admissible)
    (hstuck : s.canStep = false) : t.canStep = false := by
  obtain ⟨done, ops, rfl, hops⟩ := h
  by_contra hcan
  obtain ⟨hexec, hhung, htodo⟩ := canStep_running (Bool.eq_true_of_not_eq_false hcan)
  have hsteps : s.todo ≠ none := fun hnone => htodo ((hops hhung).trans (by simp [State.restInBytes, hnone]))
  have hcan' : s.canStep = true := canStep_of_reads hexec hhung hsteps fun _ => hadm.nextRead_lt
  simp [hcan'] at hstuck

/-- The admissible entry that byte mode has in place of one that starts no burst. -/
theorem Micro.inBytes_eq_singleton {c : Config} {op : Micro} (hop : op.Admissible c) (hdma : ∀ src n, op ≠ .dma src n) :
    ∃ op' : Micro, op.inBytes = [op'] ∧ op'.Admissible c := by
  cases op with
  | dma src n => exact absurd rfl (hdma src n)
  | _ => exact ⟨_, rfl, hop⟩

section Steps

variable {s : State} (hexec : s.seq = .exec) (hhung : s.hung = false) (hadm : s.Admissible)
include hexec hhung

/-- The byte-mode run takes an entry of its step list. -/
theorem modeless_reaches (ht : s.timer = .idle) (done : Bool) {op : Micro} (hop : op.Admissible s.cfg.val)
    (rest : List Micro) :
    (s.modeless done (some (op :: rest))).Reaches ((s.modeless done none).seqStep op rest) :=
  .of_blockStep (blockStep_withTodo_cons (s := s.modeless done none) ⟨hexec, rfl, ht, hhung⟩ hop rest)

/-- The delay timer's step is one of both runs (60 R265). -/
theorem timerStep_byteTwin {ms : Nat} (hd : s.dma = .idle) (ht : s.timer = .waiting ms) {ops : List Micro}
    (hl : s.todo = some ops) (done : Bool) :
    ∃ t, (s.modeless done s.restInBytes).Reaches t ∧ State.ByteTwin { s with timer := .idle } t := by
  rw [restInBytes_of_idle hd hl]
  have hcan : (s.modeless done (some (inBytes ops))).canStep = true :=
    canStep_of_reads hexec hhung nofun (by simp [State.nextRead, State.modeless, ht])
  have hstep : (s.modeless done (some (inBytes ops))).blockStep =
      State.modeless { s with timer := .idle } done (some (inBytes ops)) := by
    rw [State.blockStep, if_pos hcan]
    simp [State.modeless, ht]
  exact ⟨_, .of_blockStep hstep, byteTwin_of_idle (by exact hd) (by exact hl) done⟩

include hadm

/-- A step of the DMA engine (40 R147): its byte is the byte-mode run's next entry, and its notification is no step
there. -/
theorem dmaStep_byteTwin (ht : s.timer = .idle) {src : Src} {n i : Nat} (hd : s.dma = .active src n i)
    {ops : List Micro} (hl : s.todo = some ops) (done : Bool) :
    ∃ t, (s.modeless done s.restInBytes).Reaches t ∧ (s.dmaStep src n i).ByteTwin t := by
  obtain ⟨-, hi, hin⟩ := hadm.burst src n i hd
  rw [restInBytes_of_active hd hl]
  rcases Nat.eq_or_lt_of_le hi with rfl | hlt
  · rw [Nat.sub_self, State.dmaStep, if_neg (Nat.lt_irrefl i)]
    exact ⟨_, ⟨0, rfl⟩, byteTwin_of_idle rfl (by exact hl) done⟩
  · have hleft : n - i = n - (i + 1) + 1 := by omega
    rw [hleft, List.range'_succ, List.map_cons, List.cons_append]
    refine ⟨_, modeless_reaches hexec hhung ht done (op := .tx src i) (hin i hlt) _, ?_⟩
    rw [State.dmaStep, if_pos hlt]
    exact tx_byteTwin s src i done _ fun u htodo _ =>
      byteTwin_of_active (s := { u with dma := .active src n (i + 1) }) rfl (htodo.trans hl) done

/-- A step of the sequencer: the start of a burst is no step of the byte-mode run (40 R146). -/
theorem sequencer_byteTwin (hd : s.dma = .idle) (ht : s.timer = .idle) {op : Micro} {rest : List Micro}
    (hl : s.todo = some (op :: rest)) (done : Bool) :
    ∃ t, (s.modeless done s.restInBytes).Reaches t ∧ (s.seqStep op rest).ByteTwin t := by
  rw [restInBytes_of_idle hd hl, inBytes_cons]
  by_cases hdma : ∃ src n, op = .dma src n
  · obtain ⟨src, n, rfl⟩ := hdma
    refine ⟨_, ⟨0, rfl⟩, ?_⟩
    rw [Micro.inBytes, List.range_eq_range', ← Nat.sub_zero n]
    exact byteTwin_of_active rfl rfl done
  · have hne : ∀ src n, op ≠ .dma src n := by simpa using hdma
    obtain ⟨op', hop', hadm'⟩ := Micro.inBytes_eq_singleton (hadm.steps _ hl op List.mem_cons_self) hne
    rw [hop', List.singleton_append]
    exact ⟨_, modeless_reaches hexec hhung ht done hadm' _, seqStep_byteTwin hd done none hop' hne rest⟩

end Steps

/-- Each step of the one run is a step of the byte-mode run, or none: the start of a burst and its notification. -/
theorem State.ByteTwin.blockStep {s t : State} (h : s.ByteTwin t) (hadm : s.Admissible) (hone : s.OneAgent)
    (hcan : s.canStep = true) : ∃ t', t.Reaches t' ∧ s.blockStep.ByteTwin t' := by
  obtain ⟨hexec, hhung, htodo⟩ := canStep_running hcan
  obtain ⟨ops, hl⟩ := Option.ne_none_iff_exists'.1 htodo
  obtain ⟨done, rest, rfl, hrest⟩ := h
  obtain rfl := hrest hhung
  rcases blockStep_cases s hcan with ⟨src, n, i, hd, hs⟩ | ⟨hd, ⟨ms, ht⟩, hs⟩ | ⟨hd, ht, hnil, hs⟩ |
    ⟨hd, ht, op, rest, hcons, hs⟩
  · rw [hs]
    exact dmaStep_byteTwin hexec hhung hadm (hone.resolve_left (by simp [hd])) hd hl done
  · rw [hs]
    exact timerStep_byteTwin hexec hhung hd ht hl done
  · rw [hs, restInBytes_of_idle hd hnil]
    exact ⟨_, .of_blockStep (blockStep_withTodo_nil (s := s.modeless done none) ⟨hexec, rfl, ht, hhung⟩),
      done, none, rfl, fun _ => rfl⟩
  · rw [hs]
    exact sequencer_byteTwin hexec hhung hadm hd ht hcons done

/-! ### The ends of two runs -/

section Simulation

variable {R : State → State → Prop} (hstep : ∀ s t, R s t → s.canStep = true → ∃ t', t.Reaches t' ∧ R s.blockStep t')
include hstep

/-- Where each step of the one run is some steps of the other, so is each part of the one. -/
theorem reaches_of_simulation (n : Nat) {s t : State} (h : R s t) :
    ∃ t', t.Reaches t' ∧ R (State.runBlock n s) t' := by
  induction n generalizing s t with
  | zero => exact ⟨t, ⟨0, rfl⟩, h⟩
  | succ n ih =>
    cases hcan : s.canStep with
    | false =>
      rw [runBlock_stuck s _ hcan]
      exact ⟨t, ⟨0, rfl⟩, h⟩
    | true =>
      obtain ⟨t₁, hreach₁, h₁⟩ := hstep s t h hcan
      obtain ⟨t₂, hreach₂, h₂⟩ := ih h₁
      rw [runBlock_succ]
      exact ⟨t₂, hreach₁.trans hreach₂, h₂⟩

/-- Where moreover what stops the one run stops the other, the two end alike. -/
theorem finish_of_simulation (hstuck : ∀ s t, R s t → s.canStep = false → t.canStep = false) {s t : State} (h : R s t) :
    R s.finish t.finish := by
  obtain ⟨t', hreach, h'⟩ := reaches_of_simulation hstep s.work h
  rwa [hreach.finish_eq (hstuck _ _ h' (runBlock_stuck_of_work_le (Nat.le_refl s.work)))]

end Simulation

theorem start_inBytes_byteTwin {s : State} (hd : s.dma = .idle) (p : Plan) :
    (s.start p).ByteTwin (s.start p.inBytes) := by
  have hs : s.modeless s.done s.todo = s := by rw [State.modeless, ← hd]
  have hfault (c : FaultCause) := raise_byteTwin s s.done s.todo c
  have hsteps (ops : List Micro) := withTodo_byteTwin hd s.done s.todo (rfl : inBytes ops = inBytes ops)
  rw [hs] at hfault hsteps
  cases p with
  | error c => exact hfault c
  | ok ops => exact hsteps ops

/-- A request in byte mode and in any mode end in states that differ in `DONE`, the DMA engine and the step list
only. -/
theorem finish_byteTwin (i : Instr) {s : State} (hs : s.Latched) :
    (s.start (plan i s)).finish.ByteTwin (s.start (plan (withMode .byte i) s)).finish := by
  obtain ⟨-, -, hd, ht, -⟩ := hs
  rw [plan_byte]
  have hone : (s.start (plan i s)).OneAgent := by
    cases plan i s with
    | error c => exact .inl rfl
    | ok ops => exact .inl hd
  exact (finish_of_simulation (R := fun u t => u.ByteTwin t ∧ u.Admissible ∧ u.OneAgent)
    (fun u t ⟨h, hadm, hone⟩ hcan =>
      have ⟨t', hreach, h'⟩ := h.blockStep hadm hone hcan
      ⟨t', hreach, h', hadm.blockStep, hone.blockStep⟩)
    (fun u t ⟨h, hadm, _⟩ => h.canStep_eq_false hadm)
    ⟨start_inBytes_byteTwin hd _, start_admissible i hd, hone⟩).1

/-- Settles O54: the byte-mode run keeps step with the burst-mode run, so the two ends are twins. -/
theorem modesEquivalent : Obligations.ModesEquivalent := by
  intro i s hs
  obtain ⟨done, ops, hend, -⟩ := finish_byteTwin (withMode .burst i) hs
  have hmode : withMode .byte (withMode .burst i) = withMode .byte i := by cases i <;> rfl
  rw [hmode] at hend
  refine ⟨_, _, exec_eq_request s _, exec_eq_request s _, ?_, ?_⟩
  · rw [hend]
    rfl
  · rw [hend]
    rfl

end Sys2Proof.Machine

/-! ## Step lists that send a list of events, as far as the frames complete (40 R141, R146; 60 R251, R258) -/

namespace Sys2Proof.Machine

/-! ### The frames among the events -/

@[simp] theorem frameLevels_nil : frameLevels [] = [] := rfl

@[simp] theorem frameLevels_byte_cons (cs dc : Bool) (b : Byte) (es : List Event) :
    frameLevels (.byte cs dc b :: es) = dc :: frameLevels es := rfl

@[simp] theorem frameLevels_delay_cons (ms : Nat) (es : List Event) :
    frameLevels (.delay ms :: es) = frameLevels es := rfl

@[simp] theorem frameLevels_dataEvents (cs : Bool) (l : List Byte) :
    frameLevels (dataEvents cs l) = List.replicate l.length true := by
  induction l with
  | nil => rfl
  | cons b l ih => simpa [dataEvents, List.replicate_succ] using ih

theorem beforeFrame_append_of_lt (es fs : List Event) {k : Nat} (hk : k < (frameLevels es).length) :
    beforeFrame k (es ++ fs) = beforeFrame k es := by
  induction es generalizing k with
  | nil => simp at hk
  | cons e es ih =>
    cases e with
    | byte cs dc b =>
      cases k with
      | zero => rfl
      | succ k => exact congrArg (_ :: ·) (ih (Nat.lt_of_succ_lt_succ hk))
    | _ => exact congrArg (_ :: ·) (ih hk)

theorem beforeFrame_append_add (es fs : List Event) (k : Nat) :
    beforeFrame ((frameLevels es).length + k) (es ++ fs) = es ++ beforeFrame k fs := by
  induction es with
  | nil => simp
  | cons e es ih =>
    cases e with
    | byte cs dc b =>
      rw [frameLevels_byte_cons, List.length_cons, Nat.add_right_comm]
      exact congrArg (_ :: ·) ih
    | _ => exact congrArg (_ :: ·) ih

/-! ### What the events leave behind -/

/-- `s` once the events `es` have been emitted by a request in mode `m`, their frames complete: DC is at the last frame's
level, and `DONE` is as a data burst leaves it (40 R146, R148). -/
def State.played (s : State) (m : Mode) (es : List Event) : State :=
  { s with
    dc := (frameLevels es).getLastD s.dc
    done := if (frameLevels es).contains true then s.doneAfter m else s.done
    trace := s.trace ++ es
    bus := s.bus.drop (frameLevels es).length
    draws := s.draws + (frameLevels es).length }

/-- `s` once frame `k` of the events `es` has ended in an error, before fault entry: `State.failed` is fault entry from
this state, selected. -/
def State.stopped (s : State) (m : Mode) (es : List Event) (k : Nat) : State :=
  let dc := (frameLevels es).getD k false
  { s with
    dc := dc
    done := if m = .byte then s.done else !dc && (s.done || (frameLevels (beforeFrame k es)).contains true)
    trace := s.trace ++ beforeFrame k es
    bus := s.bus.drop (k + 1)
    draws := s.draws + (k + 1) }

theorem failed_eq (s : State) (m : Mode) (es : List Event) (k : Nat) :
    s.failed m es k = ((s.setCS false).stopped m es k).raise .transport := by
  rw [setCS_false_eq]
  rfl

@[simp] theorem played_nil (s : State) (m : Mode) : s.played m [] = s := by simp [State.played]

theorem played_append (s : State) (m : Mode) (es fs : List Event) :
    s.played m (es ++ fs) = (s.played m es).played m fs := by
  cases hes : (frameLevels es).contains true <;> cases hfs : (frameLevels fs).contains true <;>
    simp_all [State.played, State.doneAfter, frameLevels_append, Nat.add_assoc]

theorem stopped_append_of_lt (s : State) (m : Mode) (es fs : List Event) {k : Nat} (hk : k < (frameLevels es).length) :
    s.stopped m (es ++ fs) k = s.stopped m es k := by
  have hlevel : (frameLevels (es ++ fs)).getD k false = (frameLevels es).getD k false := by
    rw [frameLevels_append, List.getD_append _ _ _ _ hk]
  rw [State.stopped, State.stopped, hlevel, beforeFrame_append_of_lt es fs hk]

theorem stopped_append_add (s : State) (m : Mode) (es fs : List Event) (k : Nat) :
    s.stopped m (es ++ fs) ((frameLevels es).length + k) = (s.played m es).stopped m fs k := by
  have hlevel : (frameLevels (es ++ fs)).getD ((frameLevels es).length + k) false = (frameLevels fs).getD k false := by
    rw [frameLevels_append, List.getD_append_right _ _ _ _ (Nat.le_add_right _ _), Nat.add_sub_cancel_left]
  rw [State.stopped, State.stopped, hlevel, beforeFrame_append_add]
  cases m <;> cases hes : (frameLevels es).contains true <;>
    simp_all [State.played, State.doneAfter, frameLevels_append, Nat.add_assoc]

/-! ### Step lists and their events -/

/-- From `s`, the step list `ops` of a request in mode `m` sends the events `es`: while the frames complete it runs to
their end, and the first frame that ends in an error takes `TRANSPORT` after the events before it. -/
structure State.Plays (s : State) (m : Mode) (ops : List Micro) (es : List Event) : Prop where
  runs  : s.FramesOk (frameLevels es).length → s.Runs ops (s.played m es)
  fails : ∀ k, k < (frameLevels es).length → s.FramesOk k → s.frame k = .err → s.Fails ops (s.stopped m es k)

theorem frame_played (s : State) (m : Mode) (es : List Event) (k : Nat) :
    (s.played m es).frame k = s.frame ((frameLevels es).length + k) := by
  simp [State.frame, State.played, Nat.add_assoc]

theorem framesOk_played {s : State} (m : Mode) {es : List Event} {n : Nat}
    (hok : s.FramesOk ((frameLevels es).length + n)) : (s.played m es).FramesOk n :=
  framesOk_after hok rfl rfl

theorem plays_nil {s : State} (hs : s.Running) (m : Mode) : s.Plays m [] [] :=
  ⟨fun _ => by simpa using State.Runs.nil hs, nofun⟩

/-- One list after another: the frame that ends in an error is one of the first list's events or one of the second's. -/
theorem State.Plays.append {s : State} {m : Mode} {ops ops' : List Micro} {es fs : List Event} (h : s.Plays m ops es)
    (h' : (s.played m es).Plays m ops' fs) : s.Plays m (ops ++ ops') (es ++ fs) := by
  constructor
  · intro hok
    rw [frameLevels_append, List.length_append] at hok
    rw [played_append]
    exact (h.runs (framesOk_mono hok (Nat.le_add_right _ _))).append (h'.runs (framesOk_played m hok))
  · intro k hk hok herr
    rcases Nat.lt_or_ge k (frameLevels es).length with hlt | hge
    · rw [stopped_append_of_lt s m es fs hlt]
      exact (h.fails k hlt hok herr).append ops'
    · obtain ⟨j, rfl⟩ := Nat.exists_eq_add_of_le hge
      rw [frameLevels_append, List.length_append] at hk
      rw [stopped_append_add]
      rw [← frame_played s m] at herr
      exact (h.runs (framesOk_mono hok hge)).fails (h'.fails j (by omega) (framesOk_played m hok) herr)

/-- The delay timer runs, with `ops` to follow the delay (60 R265). -/
def State.delaying (s : State) (ms : Nat) (ops : List Micro) : State := { s with timer := .waiting ms, todo := some ops }

theorem blockStep_delaying {s : State} (hs : s.Running) (ms : Nat) (ops : List Micro) :
    (s.delaying ms ops).blockStep = s.withTodo ops := by
  obtain ⟨hseq, hd, ht, hhung⟩ := hs
  have hread : (s.delaying ms ops).nextRead = none := by simp [State.nextRead, State.delaying, hd]
  have hcan : (s.delaying ms ops).canStep = true := canStep_of_reads hseq hhung nofun (by simp [hread])
  rw [State.blockStep, if_pos hcan]
  simp [State.delaying, State.withTodo, hd, ht]

/-- A delay sends its event and no frame (60 R265). -/
theorem runs_delay {s : State} (hs : s.Running) (ms : Nat) : s.Runs [.delay ms] (s.emit (.delay ms)) := by
  refine ⟨hs, fun rest => ?_⟩
  have hstart := blockStep_withTodo_cons hs (op := .delay ms) trivial rest
  exact (State.Reaches.of_blockStep hstart).trans (.of_blockStep (blockStep_delaying (s := s.emit (.delay ms)) hs ms rest))

theorem plays_delay {s : State} (hs : s.Running) (m : Mode) (ms : Nat) : s.Plays m [.delay ms] [.delay ms] :=
  ⟨fun _ => by simpa [State.played, State.emit] using runs_delay hs ms, nofun⟩

/-- A command byte (40 R144). -/
theorem plays_command {s : State} (hs : s.Running) (m : Mode) (opc : Byte) :
    s.Plays m (command opc) [.byte s.cs false opc] := by
  constructor
  · intro hok
    simpa [State.played, State.sent, State.setDC] using runs_command hs opc hok
  · intro k hk hok herr
    obtain rfl : k = 0 := by simpa using hk
    simpa [State.stopped, State.sentToError, State.setDC] using fails_command hs opc herr

theorem played_dataEvents (s : State) (m : Mode) {l : List Byte} (hl : l ≠ []) :
    s.played m (dataEvents s.cs l) = (s.setDC true).burstSent m l := by
  rw [State.played, frameLevels_dataEvents]
  simp [State.burstSent, State.sent, State.setDC, State.doneAfter, dataEvents, List.getLast?_replicate, hl]

theorem map_srcByte_bytes_take (s : State) {l : List Byte} {k : Nat} (hk : k ≤ l.length) :
    (List.range k).map (s.srcByte (.bytes l)) = l.take k := by
  calc (List.range k).map (s.srcByte (.bytes l))
      = ((List.range l.length).map (s.srcByte (.bytes l))).take k := by
        rw [← List.map_take, List.take_range, Nat.min_eq_left hk]
    _ = l.take k := by rw [map_srcByte_bytes]

theorem stopped_dataEvents (s : State) (m : Mode) {l : List Byte} {k : Nat} (hk : k < l.length) :
    s.stopped m (dataEvents s.cs l) k =
      { (s.setDC true).sentToError (l.take k) with done := m == .byte && s.done } := by
  have hlen : min k l.length = k := Nat.min_eq_left hk.le
  rw [State.stopped, frameLevels_dataEvents, beforeFrame_dataEvents]
  cases m <;> simp [State.sentToError, State.setDC, dataEvents, hk, hlen]

/-- The data level and a burst of at least one byte (40 R146, R148). -/
theorem plays_burstBytes {s : State} (hs : s.Running) (m : Mode) {l : List Byte} (hl : l ≠ []) :
    s.Plays m (.setDC true :: burstBytes l m) (dataEvents s.cs l) := by
  have hdata := runs_setDC hs true
  constructor
  · intro hok
    rw [frameLevels_dataEvents, List.length_replicate] at hok
    rw [played_dataEvents s m hl]
    exact hdata.cons (runs_burstBytes hdata.running m hl hok)
  · intro k hk hok herr
    rw [frameLevels_dataEvents, List.length_replicate] at hk
    rw [stopped_dataEvents s m hk, ← map_srcByte_bytes_take (s.setDC true) hk.le]
    exact hdata.fails (fails_burst hdata.running m (src := .bytes l) (fun _ hj => hj) hk hok herr)

end Sys2Proof.Machine

/-! ## INIT (41 R160 to R168) -/

namespace Sys2Proof.Machine

/-! ### The scripts -/

theorem frameLevels_entryEvents (e : ScriptEntry) :
    frameLevels (entryEvents e) = false :: List.replicate e.args.length true := by
  cases hd : e.delay <;> simp [entryEvents, frameLevels_append, hd]

/-- The argument bytes of a script entry, which may be none (41 R164). -/
theorem plays_args {s : State} (hs : s.Running) (m : Mode) (l : List Byte) :
    s.Plays m (if l.isEmpty then [] else .setDC true :: burstBytes l m) (dataEvents s.cs l) := by
  cases l with
  | nil => exact plays_nil hs m
  | cons b l => exact plays_burstBytes hs m (List.cons_ne_nil b l)

/-- One script entry (41 R164, R165). -/
theorem plays_entrySteps {s : State} (hs : s.Running) (hcs : s.cs = false) (m : Mode) (e : ScriptEntry) :
    s.Plays m (entrySteps m e) (entryEvents e) := by
  have hargs := (plays_command hs m e.opcode).append (plays_args (s := s.played m _) hs m e.args)
  rw [show (s.played m [.byte s.cs false e.opcode]).cs = false from hcs, hcs] at hargs
  cases hd : e.delay with
  | none => simpa [entrySteps, entryEvents, hd] using hargs
  | some d =>
    have hall := hargs.append (plays_delay (s := s.played m _) hs m (delayMs d))
    simpa [entrySteps, entryEvents, hd] using hall

theorem plays_entries {s : State} (hs : s.Running) (hcs : s.cs = false) (m : Mode) (es : List ScriptEntry) :
    s.Plays m (es.flatMap (entrySteps m)) (es.flatMap entryEvents) := by
  induction es generalizing s with
  | nil => exact plays_nil hs m
  | cons e es ih => exact (plays_entrySteps hs hcs m e).append (ih (s := s.played m (entryEvents e)) hs hcs)

/-- The frames of the entries: a command byte and the arguments of each. -/
theorem length_frameLevels_entries (es : List ScriptEntry) :
    (frameLevels (es.flatMap entryEvents)).length = (es.map fun e => 1 + e.args.length).sum := by
  induction es with
  | nil => rfl
  | cons e es ih => simp [frameLevels_append, frameLevels_entryEvents, ih, Nat.add_comm, Nat.add_assoc]

theorem getLastD_frameLevels_entries (es : List ScriptEntry) (dc : Bool) :
    (frameLevels (es.flatMap entryEvents)).getLastD dc = es.foldl (fun _ e => !e.args.isEmpty) dc := by
  induction es generalizing dc with
  | nil => rfl
  | cons e es ih =>
    rw [List.foldl_cons, ← ih, List.flatMap_cons, frameLevels_append, frameLevels_entryEvents]
    cases hargs : e.args <;> simp [List.getLast?_cons, List.getLast?_replicate]

theorem contains_frameLevels_entries (es : List ScriptEntry) :
    (frameLevels (es.flatMap entryEvents)).contains true = es.any (fun e => !e.args.isEmpty) := by
  induction es with
  | nil => rfl
  | cons e es ih =>
    rw [List.any_cons, ← ih, List.flatMap_cons, frameLevels_append, frameLevels_entryEvents]
    cases hargs : e.args <;> simp [List.replicate_succ]

/-! ### The reset pulse -/

/-- The steps of INIT before its first script (41 R160, R162). -/
def initStart (c : Config) : List Micro :=
  .setCS false :: .setPState .resetting :: (resetPulse c ++ [.setPState .scriptExecuting])

theorem plan_init (m : Mode) (s : State) :
    plan (.init m) s = .ok (initStart s.cfg.val ++ (allEntries s.cfg.val).flatMap (entrySteps m)
      ++ [.setPState .ready, .setCS true]) := by
  have hscripts : s.cfg.val.scripts.flatMap (scriptSteps m) = (allEntries s.cfg.val).flatMap (entrySteps m) :=
    List.flatMap_assoc.symm
  simp [plan, planInit, bracketed, initStart, hscripts]

/-- The events of the reset pulse in `s` (41 R162). -/
def State.pulseEvents (s : State) : List Event :=
  (if s.rst then [.rstLow] else []) ++ [.delay s.cfg.val.resetSettleMs, .rstHigh]

/-- `s` when INIT has selected the panel and pulsed its reset line, and the scripts are next. -/
def State.pulsed (s : State) : State :=
  { s with
    cs := false
    rst := true
    pstate := .scriptExecuting
    trace := s.trace ++ s.lowEvents ++ s.pulseEvents }

theorem runs_setRST {s : State} (hs : s.Running) (l : Bool) : s.Runs [.setRST l] (s.setRST l) :=
  .of_seqStep hs trivial hs fun _ => rfl

theorem runs_setPState {s : State} (hs : s.Running) (p : PState) : s.Runs [.setPState p] { s with pstate := p } :=
  .of_seqStep hs trivial hs fun _ => rfl

/-- The steps of INIT before its first script, one by one. -/
theorem pulsed_eq (s : State) :
    s.pulsed = { State.setRST (State.emit (State.setRST { s.setCS false with pstate := .resetting } false)
      (.delay s.cfg.val.resetSettleMs)) true with pstate := .scriptExecuting } := by
  cases hrst : s.rst <;> simp [setCS_false_eq, State.setRST, State.emit, State.pulsed, State.pulseEvents, hrst]

theorem runs_initStart {s : State} (hs : s.Running) : s.Runs (initStart s.cfg.val) s.pulsed := by
  have hselect := (runs_setCS hs false).cons (runs_setPState (s := s.setCS false) hs .resetting)
  have hlow := hselect.append (runs_setRST (s := { s.setCS false with pstate := .resetting }) hs false)
  have hwait := hlow.append (runs_delay hlow.running s.cfg.val.resetSettleMs)
  have hhigh := hwait.append (runs_setRST hwait.running true)
  rw [pulsed_eq]
  exact hhigh.append (runs_setPState hhigh.running .scriptExecuting)

theorem frameLevels_pulseEvents (s : State) : frameLevels s.pulseEvents = [] := by
  cases hrst : s.rst <;> simp [State.pulseEvents, frameLevels, hrst]

/-- An error in the scripts, told as one among all the events of INIT. -/
theorem stopped_pulsed (s : State) (m : Mode) (es : List Event) (k : Nat) :
    s.pulsed.stopped m es k =
      { (s.setCS false).stopped m (s.pulseEvents ++ es) k with rst := true, pstate := .scriptExecuting } := by
  have hstopped := stopped_append_add (s.setCS false) m s.pulseEvents es k
  rw [frameLevels_pulseEvents, List.length_nil, Nat.zero_add] at hstopped
  rw [hstopped]
  simp [State.stopped, State.played, State.pulsed, frameLevels_pulseEvents, setCS_false_eq]

/-- Settles O13: the reset pulse runs, and the script entries play their events. -/
theorem initRunsScripts : Obligations.InitRunsScripts := by
  intro m s hs
  obtain ⟨-, htodo, -⟩ := id hs
  have hstart := runs_initStart hs.running
  have hplays := plays_entries (s := s.pulsed) hs.running rfl m (allEntries s.cfg.val)
  have hframes := length_frameLevels_entries (allEntries s.cfg.val)
  refine ⟨fun hok => ?_, fun k hk hok herr => ?_⟩
  · have hrun := hstart.append (hplays.runs (hframes ▸ hok))
    have hready := runs_setPState hrun.running .ready
    have hall := hrun.append (hready.cons (runs_setCS hready.running true))
    rw [exec_of_runs (plan_init m s) hall]
    simp only [State.played, getLastD_frameLevels_entries, contains_frameLevels_entries, hframes]
    simp [State.complete, State.setCS, State.pulsed, State.pulseEvents, State.doneAfter, htodo]
  · have hfails := (hstart.fails (hplays.fails k (hframes ▸ hk) hok herr)).append [.setPState .ready, .setCS true]
    rw [exec_of_fails (plan_init m s) hfails, stopped_pulsed, failed_eq]
    rfl

end Sys2Proof.Machine

/-! ## Which registers a request writes (10 R42, R52; 40 R149, R152; 41 R167; 42 R181) -/

namespace Sys2Proof.Machine

/-! ### The registers that step lists and requests write -/

/-- The registers that requests own, and the count of the frames offered to the bus. -/
inductive Reg where
  | pstate | rst | result | window | lineBuf | done | dc | frames | cs

/-- What the data level and a data burst in mode `m` write (40 R146, R149). -/
def sendRegs : Mode → List Reg
  | .byte => [.dc, .frames]
  | .burst => [.dc, .frames, .done]

@[simp] theorem mem_sendRegs {r : Reg} {m : Mode} :
    r ∈ sendRegs m ↔ r = .dc ∨ r = .frames ∨ (m = .burst ∧ r = .done) := by
  cases m <;> simp [sendRegs]

/-- What a draw request in mode `m` writes: CS, `WINDOW`, and what its bursts write (42 R181, 43 R190). -/
def drawRegs (m : Mode) : List Reg := .cs :: .window :: sendRegs m

/-- What an entry of a step list writes, with the burst it starts and the entries the string loops put in its place. That
fault entry releases CS is not counted (60 R255). -/
def Micro.regs : Micro → List Reg
  | .setCS _ => [.cs]
  | .setDC _ => [.dc]
  | .setRST _ => [.rst]
  | .tx _ _ => [.frames]
  | .dma _ _ => [.frames, .done]
  | .delay _ => []
  | .setPState _ => [.pstate]
  | .setWindow _ => [.window]
  | .lineByte _ _ => [.lineBuf]
  | .setResult _ => [.result]
  | .strScan t _ _ _ => drawRegs t.mode
  | .strDraw t _ _ _ _ _ => .window :: sendRegs t.mode

/-- What each request may write. -/
def instrRegs : Instr → List Reg
  | .select _ | .unselect _ => [.cs]
  | .wrcmd _ _ => [.dc, .frames]
  | .wrdata m _ _ => sendRegs m
  | .setwin m _ _ _ _ => .window :: sendRegs m
  | .init m => .pstate :: .rst :: .cs :: sendRegs m
  | .drawPixel m _ _ _ | .fillRect m _ _ _ _ _ | .drawImage m _ _ _ _ _ | .writeString m _ _ _ _ _ _
  | .fillScreen m _ => drawRegs m
  | .fillRectFast m _ _ _ _ _ | .fillScreenFast m _ => .lineBuf :: drawRegs m
  | .invert _ _ => [.cs, .dc, .frames]
  | .setGamma m _ => .cs :: sendRegs m
  | .color565 _ _ _ _ => [.result]

/-! ### Step lists that leave a register alone -/

/-- No entry of the step list writes `r`. -/
abbrev StepsSpare (r : Reg) (ops : List Micro) : Prop := ∀ op ∈ ops, r ∉ op.regs

section StepLists

variable {r : Reg}

theorem command_spares (hdc : r ≠ .dc) (hframes : r ≠ .frames) (opc : Byte) : StepsSpare r (command opc) := by
  simp [StepsSpare, command, txByte, Micro.regs, hdc, hframes]

theorem bracketed_spares (hcs : r ≠ .cs) {ops : List Micro} (h : StepsSpare r ops) : StepsSpare r (bracketed ops) := by
  have hset (l : Bool) : r ∉ (Micro.setCS l).regs := by simpa [Micro.regs] using hcs
  exact List.forall_mem_cons.2 ⟨hset _, List.forall_mem_append.2 ⟨h, List.forall_mem_singleton.2 (hset _)⟩⟩

theorem lineFill_spares (hline : r ≠ .lineBuf) (color : Half) (w : Nat) : StepsSpare r (lineFill color w) :=
  List.forall_mem_flatMap.2 fun _ _ => by simp [Micro.regs, hline]

variable {m : Mode} (hsend : r ∉ sendRegs m)
include hsend

theorem burst_spares (src : Src) (n : Nat) : StepsSpare r (burst src n m) := by
  unfold burst
  split
  · exact List.forall_mem_nil _
  · cases m <;> simp_all [StepsSpare, Micro.regs]

/-- The data level and the bursts after it. -/
theorem data_spares {ops : List Micro} (h : StepsSpare r ops) : StepsSpare r (.setDC true :: ops) :=
  List.forall_mem_cons.2 ⟨by simp_all [Micro.regs], h⟩

theorem sendCommand_spares (opc : Byte) : StepsSpare r (command opc) :=
  command_spares (by rintro rfl; simp at hsend) (by rintro rfl; simp at hsend) opc

theorem commandBurst_spares (opc : Byte) (l : List Byte) :
    StepsSpare r (command opc ++ (.setDC true :: burstBytes l m)) :=
  List.forall_mem_append.2 ⟨sendCommand_spares hsend opc, data_spares hsend (burst_spares hsend (.bytes l) l.length)⟩

theorem setWindowSteps_spares (hwin : r ≠ .window) (c : Config) (w : Window) :
    StepsSpare r (setWindowSteps c w m) := by
  have hcol := commandBurst_spares hsend c.opcCaset (coordArgs w.x0 w.x1 c.xStart)
  have hrow := commandBurst_spares hsend c.opcRaset (coordArgs w.y0 w.y1 c.yStart)
  have hend : StepsSpare r (command c.opcRamwr ++ [.setWindow w]) :=
    List.forall_mem_append.2 ⟨sendCommand_spares hsend _, List.forall_mem_singleton.2 (by simpa [Micro.regs] using hwin)⟩
  have hall := List.forall_mem_append.2 ⟨List.forall_mem_append.2 ⟨hcol, hrow⟩, hend⟩
  simpa only [setWindowSteps, List.append_assoc] using hall

theorem pixelSteps_spares (ps : List Half) : StepsSpare r (pixelSteps ps m) :=
  List.forall_mem_flatMap.2 fun p _ => burst_spares hsend (.bytes (px p)) (px p).length

theorem entrySteps_spares (e : ScriptEntry) : StepsSpare r (entrySteps m e) := by
  unfold entrySteps
  refine List.forall_mem_append.2 ⟨List.forall_mem_append.2 ⟨sendCommand_spares hsend e.opcode, ?_⟩, ?_⟩
  · split
    · exact List.forall_mem_nil _
    · exact data_spares hsend (burst_spares hsend (.bytes e.args) e.args.length)
  · split
    · exact List.forall_mem_singleton.2 List.not_mem_nil
    · exact List.forall_mem_nil _

end StepLists

section DrawSteps

variable {r : Reg}

theorem glyphSteps_spares {t : Text} (hsend : r ∉ sendRegs t.mode) (hwin : r ≠ .window) (c : Config) (ch : Byte)
    (x y : Nat) : StepsSpare r (glyphSteps c t ch x y) :=
  List.forall_mem_append.2 ⟨setWindowSteps_spares hsend hwin c _, data_spares hsend (pixelSteps_spares hsend _)⟩

theorem notMem_drawRegs {m : Mode} : r ∉ drawRegs m ↔ r ≠ .cs ∧ r ≠ .window ∧ r ∉ sendRegs m := by
  simp only [drawRegs, List.mem_cons, not_or, ne_eq]

variable {m : Mode} (hdraw : r ∉ drawRegs m)
include hdraw

theorem paintSteps_spares (c : Config) (x y w h : Nat) {before pixels : List Micro} (hb : StepsSpare r before)
    (hp : StepsSpare r pixels) : StepsSpare r (paintSteps c m x y w h before pixels) := by
  obtain ⟨hcs, hwin, hsend⟩ := notMem_drawRegs.1 hdraw
  exact bracketed_spares hcs <| List.forall_mem_append.2
    ⟨List.forall_mem_append.2 ⟨setWindowSteps_spares hsend hwin c _, hb⟩, data_spares hsend hp⟩

theorem drawBurst_spares (src : Src) (n : Nat) : StepsSpare r (burst src n m) :=
  burst_spares (notMem_drawRegs.1 hdraw).2.2 src n

theorem fillSteps_spares (c : Config) (x y w h : Nat) (color : Half) : StepsSpare r (fillSteps c m x y w h color) := by
  unfold fillSteps
  split
  · exact List.forall_mem_nil _
  · obtain ⟨-, -, hsend⟩ := notMem_drawRegs.1 hdraw
    exact paintSteps_spares hdraw c x y _ _ (List.forall_mem_nil _) (pixelSteps_spares hsend _)

theorem fillFastSteps_spares (hline : r ≠ .lineBuf) (c : Config) (x y w h : Nat) (color : Half) :
    StepsSpare r (fillFastSteps c m x y w h color) := by
  unfold fillFastSteps
  split
  · exact List.forall_mem_nil _
  · rename_i w' h' _
    have hlines : StepsSpare r (List.replicate h' (burst .lineBuf (2 * w') m)).flatten :=
      List.forall_mem_flatten.2 fun l hl => (List.eq_of_mem_replicate hl) ▸ drawBurst_spares hdraw .lineBuf (2 * w')
    exact paintSteps_spares hdraw c x y _ _ (lineFill_spares hline color w') hlines

end DrawSteps

/-! The plans, request by request, from every state. -/

/-- What the request's checks let through does not write `r`. -/
def Plan.Spares (r : Reg) (p : Plan) : Prop := ∀ ops, p = .ok ops → StepsSpare r ops

section Plans

variable {r : Reg}

theorem StepsSpare.plan {ops : List Micro} (h : StepsSpare r ops) : Plan.Spares r (.ok ops) := by
  rintro _ ⟨⟩
  exact h

theorem Plan.spares_error (r : Reg) (c : FaultCause) : Plan.Spares r (.error c) := nofun

theorem whenReady_spares (s : State) {p : Plan} (h : p.Spares r) : (s.whenReady p).Spares r := by
  by_cases hr : s.pstate = .ready
  · rwa [whenReady_ready s p hr]
  · rw [whenReady_notReady s p hr]
    exact Plan.spares_error r .notReady

theorem planInit_spares {m : Mode} (h : r ∉ instrRegs (.init m)) (s : State) : (planInit m s).Spares r := by
  obtain ⟨hpstate, hrst, hcs, hsend⟩ : r ≠ .pstate ∧ r ≠ .rst ∧ r ≠ .cs ∧ r ∉ sendRegs m := by
    simpa [instrRegs] using h
  have hsetP (p : PState) : r ∉ (Micro.setPState p).regs := by simpa [Micro.regs] using hpstate
  have hset (l : Bool) : r ∉ (Micro.setRST l).regs := by simpa [Micro.regs] using hrst
  have hscripts : StepsSpare r (s.cfg.val.scripts.flatMap (scriptSteps m)) :=
    List.forall_mem_flatMap.2 fun _ _ => List.forall_mem_flatMap.2 fun e _ => entrySteps_spares hsend e
  refine (bracketed_spares hcs ?_).plan
  simp only [StepsSpare, resetPulse, List.cons_append, List.nil_append, List.forall_mem_cons, List.forall_mem_append]
  exact ⟨hsetP _, hset _, List.not_mem_nil, hset _, hsetP _, hscripts, hsetP _, List.forall_mem_nil _⟩

theorem planDrawImage_spares {m : Mode} (hdraw : r ∉ drawRegs m) (s : State) (x y w h : Half) (addr : Word) :
    (planDrawImage m x y w h addr s).Spares r := by
  refine whenReady_spares s ?_
  split
  · exact StepsSpare.plan (List.forall_mem_nil _)
  · dsimp only
    split
    · exact StepsSpare.plan (List.forall_mem_nil _)
    · split
      · exact Plan.spares_error r .buffer
      · refine (paintSteps_spares hdraw _ _ _ _ _ (List.forall_mem_nil _) ?_).plan
        split <;> exact drawBurst_spares hdraw _ _

/-- What a request's checks let through writes only what the request may write. -/
theorem plan_spares {i : Instr} (hr : r ∉ instrRegs i) (s : State) : (plan i s).Spares r := by
  cases i with
  | select m => exact StepsSpare.plan (List.forall_mem_singleton.2 hr)
  | unselect m => exact StepsSpare.plan (List.forall_mem_singleton.2 hr)
  | wrcmd m opc =>
    obtain ⟨hdc, hframes⟩ : r ≠ .dc ∧ r ≠ .frames := by simpa [instrRegs] using hr
    exact (command_spares hdc hframes opc).plan
  | wrdata m addr len =>
    show (planWrdata m addr len s).Spares r
    unfold planWrdata
    split
    · exact StepsSpare.plan (data_spares hr (burst_spares hr _ _))
    · exact Plan.spares_error r .buffer
  | setwin m x0 y0 x1 y1 =>
    obtain ⟨hwin, hsend⟩ : r ≠ .window ∧ r ∉ sendRegs m := by simpa [instrRegs] using hr
    refine whenReady_spares s ?_
    split
    · exact (setWindowSteps_spares hsend hwin _ _).plan
    · exact Plan.spares_error r .badOperand
  | init m => exact planInit_spares hr s
  | drawPixel m x y color =>
    refine whenReady_spares s ?_
    split
    · exact StepsSpare.plan (List.forall_mem_nil _)
    · exact (paintSteps_spares hr _ _ _ _ _ (List.forall_mem_nil _) (drawBurst_spares hr _ _)).plan
  | fillRect m x y w h color => exact whenReady_spares s (fillSteps_spares hr _ _ _ _ _ color).plan
  | fillRectFast m x y w h color =>
    obtain ⟨hline, hdraw⟩ : r ≠ .lineBuf ∧ r ∉ drawRegs m := by simpa [instrRegs] using hr
    exact whenReady_spares s (fillFastSteps_spares hdraw hline _ _ _ _ _ color).plan
  | drawImage m x y w h addr => exact planDrawImage_spares hr s x y w h addr
  | writeString m f x y fg bg addr =>
    refine whenReady_spares s ?_
    split
    · exact StepsSpare.plan (List.forall_mem_singleton.2 hr)
    · exact Plan.spares_error r .badOperand
  | fillScreen m color => exact whenReady_spares s (fillSteps_spares hr _ _ _ _ _ color).plan
  | fillScreenFast m color =>
    obtain ⟨hline, hdraw⟩ : r ≠ .lineBuf ∧ r ∉ drawRegs m := by simpa [instrRegs] using hr
    exact whenReady_spares s (fillFastSteps_spares hdraw hline _ _ _ _ _ color).plan
  | invert m on =>
    obtain ⟨hcs, hdc, hframes⟩ : r ≠ .cs ∧ r ≠ .dc ∧ r ≠ .frames := by simpa [instrRegs] using hr
    exact whenReady_spares s (bracketed_spares hcs (command_spares hdc hframes _)).plan
  | setGamma m curve =>
    obtain ⟨hcs, hsend⟩ : r ≠ .cs ∧ r ∉ sendRegs m := by simpa [instrRegs] using hr
    exact whenReady_spares s (bracketed_spares hcs (commandBurst_spares hsend _ [curve])).plan
  | color565 m r' g b => exact StepsSpare.plan (List.forall_mem_singleton.2 hr)

end Plans

/-! ### The registers that a step keeps -/

/-- The steps to come, and the burst in flight, do not write `r`. -/
structure State.Spares (r : Reg) (s : State) : Prop where
  burst : s.dma ≠ .idle → r ∉ [.frames, .done]
  steps : ∀ ops, s.todo = some ops → StepsSpare r ops

theorem Micro.Becomes.spares {r : Reg} {c : Config} {op : Micro} {ops : List Micro} {d : Dma} {tm : Timer}
    (h : op.Becomes c ops d tm) (hop : r ∉ op.regs) : StepsSpare r ops ∧ (d ≠ .idle → r ∉ [.frames, .done]) := by
  cases h with
  | done => exact ⟨List.forall_mem_nil _, nofun⟩
  | burst => exact ⟨List.forall_mem_nil _, fun _ => hop⟩
  | delay => exact ⟨List.forall_mem_nil _, nofun⟩
  | scanOn => exact ⟨List.forall_mem_singleton.2 hop, nofun⟩
  | scanned =>
    obtain ⟨hcs, hrest⟩ : _ ∧ r ∉ .window :: sendRegs _ := not_or.1 (hop ∘ List.mem_cons.2)
    exact ⟨bracketed_spares hcs (List.forall_mem_singleton.2 hrest), nofun⟩
  | space => exact ⟨List.forall_mem_singleton.2 hop, nofun⟩
  | cell ch =>
    obtain ⟨hwin, hsend⟩ : _ ∧ r ∉ sendRegs _ := not_or.1 (hop ∘ List.mem_cons.2)
    exact ⟨List.forall_mem_append.2 ⟨glyphSteps_spares hsend hwin _ ch _ _, List.forall_mem_singleton.2 hop⟩, nofun⟩

theorem State.Spares.moves {r : Reg} {s t : State} (h : s.Spares r) (hm : s.Moves t) : t.Spares r := by
  cases hm with
  | ended _ htodo hdma => exact ⟨by simp [hdma], by simp [htodo]⟩
  | dma hd htodo _ _ => exact ⟨fun _ => h.burst (by simp [hd]), htodo ▸ h.steps⟩
  | timer _ _ htodo hdma _ => exact ⟨by simp [hdma], htodo ▸ h.steps⟩
  | entry _ _ hl hops htodo =>
    obtain ⟨hop, hrest⟩ := List.forall_mem_cons.1 (h.steps _ hl)
    obtain ⟨hnew, hburst⟩ := hops.spares hop
    refine ⟨hburst, fun l hl' => ?_⟩
    cases htodo.symm.trans hl'
    exact List.forall_mem_append.2 ⟨hnew, hrest⟩

/-- `t` has `r` as `s` has it; CS unless `t` is halted, since fault entry releases it (60 R255). -/
def Reg.Kept : Reg → State → State → Prop
  | .pstate, s, t => t.pstate = s.pstate
  | .rst, s, t => t.rst = s.rst
  | .result, s, t => t.result = s.result
  | .window, s, t => t.window = s.window
  | .lineBuf, s, t => t.lineBuf = s.lineBuf
  | .done, s, t => t.done = s.done
  | .dc, s, t => t.dc = s.dc
  | .frames, s, t => t.draws = s.draws
  | .cs, s, t => t.seq ≠ .halted → t.cs = s.cs

section Kept

variable {r : Reg} {s t u : State}

theorem kept_refl (r : Reg) (s : State) : r.Kept s s := by cases r <;> simp [Reg.Kept]

theorem Reg.Kept.trans (h : r.Kept s t) (hrun : t.seq ≠ .halted) (h' : r.Kept t u) : r.Kept s u := by
  cases r with
  | cs => exact fun hu => (h' hu).trans (h hrun)
  | _ => exact Eq.trans h' h

theorem kept_raise (r : Reg) (s : State) (c : FaultCause) : r.Kept s (s.raise c) := by
  cases r <;> simp [Reg.Kept]

theorem kept_popFrame (hr : r ≠ .frames) (s : State) : r.Kept s s.popFrame := by
  cases r <;> simp_all [Reg.Kept]

theorem kept_emit (r : Reg) (s : State) (e : Event) : r.Kept s (s.emit e) := by
  cases r <;> simp [Reg.Kept]

theorem kept_withTodo (r : Reg) (s : State) (ops : List Micro) : r.Kept s (s.withTodo ops) := by
  cases r <;> simp [Reg.Kept, State.withTodo]

/-- One frame, and what its agent does next (40 R141). -/
theorem kept_tx (hr : r ≠ .frames) (hrun : s.seq ≠ .halted) (b : Byte) {f : State → State}
    (hf : ∀ u : State, r.Kept u (f u)) : r.Kept s (s.tx b f) := by
  have hpop := kept_popFrame hr s
  rcases tx_cases s b f with ⟨-, h⟩ | ⟨-, h⟩ | ⟨-, h⟩
  · rw [h]
    exact (hpop.trans hrun (kept_emit r _ _)).trans hrun (hf _)
  · rw [h]
    exact hpop.trans hrun (kept_raise r _ _)
  · rw [h]
    exact hpop.trans hrun (by cases r <;> simp [Reg.Kept])

theorem kept_dmaStep (hr : r ∉ [.frames, .done]) (hrun : s.seq ≠ .halted) (src : Src) (n i : Nat) :
    r.Kept s (s.dmaStep src n i) := by
  obtain ⟨hframes, hdone⟩ : r ≠ .frames ∧ r ≠ .done := by simpa using hr
  unfold State.dmaStep
  split
  · exact kept_tx hframes hrun _ fun u => by cases r <;> simp [Reg.Kept]
  · cases r <;> simp_all [Reg.Kept]

theorem kept_seqStep {op : Micro} (hr : r ∉ op.regs) (hrun : s.seq ≠ .halted) (rest : List Micro) :
    r.Kept s (s.seqStep op rest) := by
  refine (kept_withTodo r s rest).trans hrun ?_
  cases op with
  | tx src k => exact kept_tx (s := s.withTodo rest) (by simpa [Micro.regs] using hr) hrun _ (kept_refl r)
  | strScan t x y n =>
    rcases strScanStep_cases (s.withTodo rest) rest t x y n with h | ⟨ops, -, h⟩
    · rw [show s.seqStep (.strScan t x y n) rest = _ from h]
      exact kept_raise r _ _
    · rw [show s.seqStep (.strScan t x y n) rest = _ from h]
      exact kept_withTodo r _ _
  | strDraw t len i x y a =>
    obtain ⟨ops, -, h⟩ := strDrawStep_cases (s.withTodo rest) rest t len i x y a
    rw [show s.seqStep (.strDraw t len i x y a) rest = _ from h]
    exact kept_withTodo r _ _
  | _ => cases r <;> simp_all [Reg.Kept, Micro.regs, State.seqStep, State.withTodo]

theorem State.Spares.kept_blockStep (h : s.Spares r) (hcan : s.canStep = true) : r.Kept s s.blockStep := by
  obtain ⟨hexec, -, -⟩ := canStep_running hcan
  have hrun : s.seq ≠ .halted := by simp [hexec]
  rcases blockStep_cases s hcan with ⟨src, n, i, hd, hs⟩ | ⟨-, -, hs⟩ | ⟨-, -, -, hs⟩ | ⟨-, -, op, rest, hl, hs⟩
  · exact hs ▸ kept_dmaStep (h.burst (by simp [hd])) hrun src n i
  · rw [hs]
    cases r <;> simp [Reg.Kept]
  · rw [hs]
    cases r <;> simp [Reg.Kept]
  · exact hs ▸ kept_seqStep (List.forall_mem_cons.1 (h.steps _ hl)).1 hrun rest

theorem State.Spares.kept_runBlock (n : Nat) (h : s.Spares r) : r.Kept s (State.runBlock n s) := by
  induction n generalizing s with
  | zero => exact kept_refl r s
  | succ n ih =>
    cases hcan : s.canStep with
    | false =>
      rw [runBlock_stuck s _ hcan]
      exact kept_refl r s
    | true =>
      have hstep := h.kept_blockStep hcan
      rw [runBlock_succ]
      by_cases hrun : s.blockStep.seq = .halted
      · rwa [runBlock_stuck _ n (canStep_of_not_exec _ (by simp [hrun]))]
      · exact hstep.trans hrun (ih (h.moves (blockStep_moves s hcan).2))

end Kept

/-! ### The registers that a request keeps -/

/-- A request keeps what it may not write. -/
theorem kept_exec {r : Reg} {i : Instr} {s t : State} (hs : s.Latched) (h : exec i s = .next t) (hr : r ∉ instrRegs i) :
    r.Kept s t := by
  obtain ⟨hexec, -, hd, -, -⟩ := hs
  rw [exec_eq_request] at h
  cases hp : plan i s with
  | error c =>
    rw [hp, request_error] at h
    cases h
    exact kept_raise r s c
  | ok ops =>
    rw [hp, request_eq] at h
    cases h
    have hops := plan_spares hr s ops hp
    have hspares : (s.withTodo ops).Spares r := ⟨fun hne => absurd hd hne, by rintro _ ⟨⟩; exact hops⟩
    exact (kept_withTodo r s ops).trans (by simp [State.withTodo, hexec]) (hspares.kept_runBlock _)

theorem pstate_or_rst_mem_instrRegs {i : Instr} (h : .pstate ∈ instrRegs i ∨ .rst ∈ instrRegs i) : ∃ m, i = .init m := by
  cases i <;> simp_all [instrRegs, drawRegs]

theorem result_mem_instrRegs {i : Instr} (h : .result ∈ instrRegs i) : ∃ m r g b, i = .color565 m r g b := by
  cases i <;> simp_all [instrRegs, drawRegs]

theorem window_mem_instrRegs {i : Instr} (h : .window ∈ instrRegs i) :
    panelOp i = true ∧ (∀ m on, i ≠ .invert m on) ∧ ∀ m curve, i ≠ .setGamma m curve := by
  cases i <;> simp_all [instrRegs, drawRegs, panelOp]

theorem lineBuf_mem_instrRegs {i : Instr} (h : .lineBuf ∈ instrRegs i) :
    (∃ m x y w h c, i = .fillRectFast m x y w h c) ∨ ∃ m c, i = .fillScreenFast m c := by
  cases i <;> simp_all [instrRegs, drawRegs]

theorem done_mem_instrRegs {i : Instr} (h : .done ∈ instrRegs i) : modeOf i = .burst := by
  cases i <;> simp_all [instrRegs, drawRegs, modeOf]

/-- Settles O48: a request keeps what its steps do not write, and the table `instrRegs` says what they write. -/
theorem requestsOwnTheirRegisters : Obligations.RequestsOwnTheirRegisters := by
  intro i s t hs h
  have hkept (r : Reg) (hr : r ∉ instrRegs i) : r.Kept s t := kept_exec hs h hr
  refine ⟨fun hi => ⟨hkept .pstate fun hm => ?_, hkept .rst fun hm => ?_⟩, fun hi => hkept .result fun hm => ?_,
    fun hi => hkept .window fun hm => ?_, fun hi hi' => hkept .lineBuf fun hm => ?_, fun hi => hkept .done fun hm => ?_,
    fun hi => ⟨hkept .dc ?_, hkept .frames ?_⟩, fun hi => hkept .cs ?_⟩
  · obtain ⟨m, rfl⟩ := pstate_or_rst_mem_instrRegs (.inl hm)
    exact hi m rfl
  · obtain ⟨m, rfl⟩ := pstate_or_rst_mem_instrRegs (.inr hm)
    exact hi m rfl
  · obtain ⟨m, r, g, b, rfl⟩ := result_mem_instrRegs hm
    exact hi m r g b rfl
  · obtain ⟨hpanel, hinvert, hgamma⟩ := window_mem_instrRegs hm
    rcases hi with hi | ⟨m, on, rfl⟩ | ⟨m, curve, rfl⟩
    · simp [hpanel] at hi
    · exact hinvert m on rfl
    · exact hgamma m curve rfl
  · rcases lineBuf_mem_instrRegs hm with ⟨m, x, y, w, height, c, rfl⟩ | ⟨m, c, rfl⟩
    · exact hi m x y w height c rfl
    · exact hi' m c rfl
  · simp [done_mem_instrRegs hm] at hi
  · rcases hi with ⟨m, rfl⟩ | ⟨m, rfl⟩ | ⟨m, r, g, b, rfl⟩ <;> simp [instrRegs]
  · rcases hi with ⟨m, rfl⟩ | ⟨m, rfl⟩ | ⟨m, r, g, b, rfl⟩ <;> simp [instrRegs]
  · rcases hi with ⟨m, opc, rfl⟩ | ⟨m, a, l, rfl⟩ | ⟨m, x0, y0, x1, y1, rfl⟩ | ⟨m, r, g, b, rfl⟩ <;> simp [instrRegs]

end Sys2Proof.Machine

/-! ## SETWIN (42 R180 to R182) -/

namespace Sys2Proof.Machine

theorem plan_setwin_ok {s : State} (m : Mode) {x0 y0 x1 y1 : Half} (hready : s.pstate = .ready)
    (hin : Window.inPanel ⟨x0, y0, x1, y1⟩ s.cfg.val = true) :
    plan (.setwin m x0 y0 x1 y1) s = .ok (setWindowSteps s.cfg.val ⟨x0, y0, x1, y1⟩ m) := by
  simp [plan, planSetwin, hready, hin]

/-- Among events that are all bytes, the `k`-th frame comes after the first `k` events. -/
theorem beforeFrame_eq_take {es : List Event} (h : ∀ e ∈ es, ∃ cs dc b, e = .byte cs dc b) (k : Nat) :
    beforeFrame k es = es.take k := by
  induction es generalizing k with
  | nil => simp
  | cons e es ih =>
    obtain ⟨⟨cs, dc, b, rfl⟩, hes⟩ := List.forall_mem_cons.1 h
    cases k with
    | zero => rfl
    | succ k => exact congrArg (_ :: ·) (ih hes k)

theorem beforeFrame_windowEvents (c : Config) (cs : Bool) (w : Window) (k : Nat) :
    beforeFrame k (windowEvents c cs w) = (windowEvents c cs w).take k :=
  beforeFrame_eq_take (by simp [windowEvents, dataEvents, or_imp, forall_and]) k

theorem length_frameLevels_windowEvents (c : Config) (cs : Bool) (w : Window) :
    (frameLevels (windowEvents c cs w)).length = 11 := rfl

theorem played_cs (s : State) (m : Mode) (es : List Event) : (s.played m es).cs = s.cs := rfl

/-- A command byte and its arguments (40 R144, R146). -/
theorem plays_commandBurst {s : State} (hs : s.Running) (m : Mode) (opc : Byte) {l : List Byte} (hl : l ≠ []) :
    s.Plays m (command opc ++ (.setDC true :: burstBytes l m)) (.byte s.cs false opc :: dataEvents s.cs l) :=
  (plays_command hs m opc).append (plays_burstBytes (s := s.played m _) hs m hl)

/-- A window sequence whose frame `k` ends in an error does not reach its last step, which writes `WINDOW` (42 R181). -/
theorem fails_setWindowSteps {s : State} (hs : s.Running) (m : Mode) (w : Window) {k : Nat} (hk : k < 11)
    (hok : s.FramesOk k) (herr : s.frame k = .err) :
    s.Fails (setWindowSteps s.cfg.val w m) (s.stopped m (windowEvents s.cfg.val s.cs w) k) := by
  have hargs (c0 c1 origin : Half) : coordArgs c0 c1 origin ≠ [] := List.cons_ne_nil _ _
  have hcols := plays_commandBurst hs m s.cfg.val.opcCaset (hargs w.x0 w.x1 s.cfg.val.xStart)
  have hrows := hcols.append (plays_commandBurst (s := s.played m _) hs m s.cfg.val.opcRaset
    (hargs w.y0 w.y1 s.cfg.val.yStart))
  have hall := hrows.append (plays_command (s := s.played m _) hs m s.cfg.val.opcRamwr)
  have hfails := (hall.fails k hk hok herr).append [.setWindow w]
  simpa only [setWindowSteps, windowEvents, played_cs, List.append_assoc] using hfails

/-- Settles O12: the window sequence runs while its frames complete, and a frame that ends in an error stops it before its
last step. -/
theorem setwinSelectsWindow : Obligations.SetwinSelectsWindow := by
  intro m x0 y0 x1 y1
  refine ⟨by simpa [encode, w0Of_eq_or, pair] using decodeOfEncode (.setwin m x0 y0 x1 y1),
    fun s hs hready hin => ⟨fun hok => ?_, fun k hk hok herr => ?_⟩⟩
  · obtain ⟨-, htodo, -⟩ := id hs
    rw [exec_of_runs (plan_setwin_ok m hready hin) (runs_setWindowSteps hs.running m hin hok),
      complete_eq (s := s.windowSent m _) htodo]
    rfl
  · refine ⟨_, exec_of_fails (plan_setwin_ok m hready hin) (fails_setWindowSteps hs.running m _ hk hok herr),
      rfl, rfl, rfl, rfl, ?_⟩
    cases hcs : s.cs <;> simp [State.stopped, State.highEvents, beforeFrame_windowEvents, hcs]

end Sys2Proof.Machine

/-! ## Draw requests: events, and the registers they write on the way (42 R181; 43 R190, R195) -/

namespace Sys2Proof.Machine

/-! ### Step lists that send events and write `WINDOW` and `LINEBUF` -/

/-- The two registers that a draw request writes between its frames: `WINDOW` (42 R181) and `LINEBUF` (43 R195). -/
abbrev DrawRegs := Window × List Byte

/-- The state with these two registers replaced. -/
def State.withDraw (s : State) (r : DrawRegs) : State := { s with window := r.1, lineBuf := r.2 }

/-- From `s`, the step list `ops` of a request in mode `m` sends the events `es` as `State.Plays` says, and the draw
registers are `r k` when frame `k` is offered; after the last frame `k` is the number of frames. -/
structure State.Draws (s : State) (m : Mode) (ops : List Micro) (es : List Event) (r : Nat → DrawRegs) : Prop where
  runs  : s.FramesOk (frameLevels es).length → s.Runs ops ((s.played m es).withDraw (r (frameLevels es).length))
  fails : ∀ k, k < (frameLevels es).length → s.FramesOk k → s.frame k = .err →
    s.Fails ops ((s.stopped m es k).withDraw (r k))

section Draws

variable {s : State} {m : Mode} {ops ops' : List Micro} {es fs : List Event} {r r' : Nat → DrawRegs}

theorem State.Plays.draws (h : s.Plays m ops es) : s.Draws m ops es fun _ => (s.window, s.lineBuf) := ⟨h.runs, h.fails⟩

/-- Steps that send nothing and write the draw registers. -/
theorem State.Runs.draws {p : DrawRegs} (h : s.Runs ops (s.withDraw p)) : s.Draws m ops [] fun _ => p :=
  ⟨fun _ => by rwa [played_nil], nofun⟩

theorem State.Draws.congr (h : s.Draws m ops es r) (hr : ∀ k, k ≤ (frameLevels es).length → r k = r' k) :
    s.Draws m ops es r' :=
  ⟨fun hok => hr _ (Nat.le_refl _) ▸ h.runs hok, fun k hk hok herr => hr k hk.le ▸ h.fails k hk hok herr⟩

theorem stopped_append_draw (s : State) (m : Mode) (es fs : List Event) (k : Nat) (p q : DrawRegs) :
    (((s.played m es).withDraw p).stopped m fs k).withDraw q =
      (s.stopped m (es ++ fs) ((frameLevels es).length + k)).withDraw q := by
  rw [stopped_append_add]
  rfl

/-- One list after another: the second starts from the registers that the first ends with. -/
theorem State.Draws.append (h : s.Draws m ops es r) {p : DrawRegs} (hp : r (frameLevels es).length = p)
    (h' : ((s.played m es).withDraw p).Draws m ops' fs r') :
    s.Draws m (ops ++ ops') (es ++ fs)
      fun k => if k < (frameLevels es).length then r k else r' (k - (frameLevels es).length) := by
  subst hp
  constructor
  · intro hok
    rw [frameLevels_append, List.length_append] at hok ⊢
    rw [played_append, if_neg (by omega), Nat.add_sub_cancel_left]
    exact (h.runs (framesOk_mono hok (Nat.le_add_right _ _))).append (h'.runs (framesOk_played m hok))
  · intro k hk hok herr
    rcases Nat.lt_or_ge k (frameLevels es).length with hlt | hge
    · rw [stopped_append_of_lt s m es fs hlt, if_pos hlt]
      exact (h.fails k hlt hok herr).append ops'
    · obtain ⟨j, rfl⟩ := Nat.exists_eq_add_of_le hge
      rw [frameLevels_append, List.length_append] at hk
      rw [if_neg (by omega), Nat.add_sub_cancel_left, ← stopped_append_draw s m es fs j]
      rw [← frame_played s m] at herr
      exact (h.runs (framesOk_mono hok hge)).fails (h'.fails j (by omega) (framesOk_played m hok) herr)

end Draws

/-! ### Entries that become step lists -/

/-- The block's steps lead from the step list `ops` to `ops'` in its place, with nothing else changed. -/
def State.Expands (s : State) (ops ops' : List Micro) : Prop :=
  ∀ rest, (s.withTodo (ops ++ rest)).Reaches (s.withTodo (ops' ++ rest))

section Expands

variable {s t : State} {m : Mode} {ops ops' : List Micro}

theorem expands_refl (s : State) (ops : List Micro) : s.Expands ops ops := fun _ => ⟨0, rfl⟩

theorem State.Expands.trans {ops'' : List Micro} (h : s.Expands ops ops') (h' : s.Expands ops' ops'') :
    s.Expands ops ops'' := fun rest => (h rest).trans (h' rest)

/-- One entry, by what the sequencer's step puts in its place. -/
theorem State.Expands.of_seqStep {op : Micro} (hs : s.Running) (hop : op.Admissible s.cfg.val)
    (hstep : ∀ rest, s.seqStep op rest = s.withTodo (ops ++ rest)) : s.Expands [op] ops :=
  fun rest => .of_blockStep ((blockStep_withTodo_cons hs hop rest).trans (hstep rest))

theorem State.Expands.runs (h : s.Expands ops ops') (hrun : s.Runs ops' t) : s.Runs ops t :=
  ⟨hrun.running, fun rest => (h rest).trans (hrun.reaches rest)⟩

theorem State.Expands.fails (h : s.Expands ops ops') (hfail : s.Fails ops' t) : s.Fails ops t :=
  fun rest => (h rest).trans (hfail rest)

theorem State.Expands.draws {es : List Event} {r : Nat → DrawRegs} (h : s.Expands ops ops')
    (hdraw : s.Draws m ops' es r) : s.Draws m ops es r :=
  ⟨fun hok => h.runs (hdraw.runs hok), fun k hk hok herr => h.fails (hdraw.fails k hk hok herr)⟩

end Expands

/-! ### Data bursts after one another -/

theorem setDC_same {s : State} {l : Bool} (h : s.dc = l) : s.setDC l = s := by
  rw [State.setDC, ← h]

/-- A burst at the data level, which may be empty (40 R146, R148). -/
theorem plays_burst {s : State} (hs : s.Running) (hdc : s.dc = true) (m : Mode) {src : Src} {n : Nat}
    (hin : ∀ k, k < n → src.InRange s.cfg.val k) :
    s.Plays m (burst src n m) (dataEvents s.cs ((List.range n).map (s.srcByte src))) := by
  rcases Nat.eq_zero_or_pos n with rfl | hn
  · exact plays_nil hs m
  have hne : (List.range n).map (s.srcByte src) ≠ [] := by simp; omega
  constructor
  · intro hok
    rw [played_dataEvents s m hne, setDC_same hdc]
    exact runs_burst hs m (by omega) hin (by simpa using hok)
  · intro k hk hok herr
    have hkn : k < n := by simpa using hk
    rw [stopped_dataEvents s m (by simpa using hkn), setDC_same hdc, ← List.map_take, List.take_range,
      Nat.min_eq_left hkn.le]
    exact fails_burst hs m hin hkn hok herr

theorem played_dataEvents_dc {s : State} (hdc : s.dc = true) (m : Mode) (cs : Bool) (l : List Byte) :
    (s.played m (dataEvents cs l)).dc = true := by
  rw [State.played, frameLevels_dataEvents]
  by_cases hl : l = [] <;> simp [List.getLast?_replicate, hl, hdc]

theorem srcByte_played (s : State) (m : Mode) (es : List Event) : (s.played m es).srcByte = s.srcByte := by
  funext src
  cases src <;> rfl

theorem dataEvents_append (cs : Bool) (l l' : List Byte) :
    dataEvents cs (l ++ l') = dataEvents cs l ++ dataEvents cs l' :=
  List.map_append

/-- Bursts of `n` bytes each from the sources of a list, at the data level. -/
theorem plays_bursts {s : State} (hs : s.Running) (hdc : s.dc = true) (m : Mode) {n : Nat} (srcs : List Src)
    (hin : ∀ src ∈ srcs, ∀ k, k < n → src.InRange s.cfg.val k) :
    s.Plays m (srcs.flatMap (burst · n m))
      (dataEvents s.cs (srcs.flatMap fun src => (List.range n).map (s.srcByte src))) := by
  induction srcs generalizing s with
  | nil => exact plays_nil hs m
  | cons src srcs ih =>
    obtain ⟨hsrc, hsrcs⟩ := List.forall_mem_cons.1 hin
    have hburst := plays_burst hs hdc m hsrc
    have hrest := ih (s := s.played m (dataEvents s.cs ((List.range n).map (s.srcByte src)))) hs
      (played_dataEvents_dc hdc m s.cs _) hsrcs
    rw [srcByte_played] at hrest
    rw [List.flatMap_cons, List.flatMap_cons, dataEvents_append]
    exact hburst.append hrest

/-- The data level and what follows it, if that sends a byte. -/
theorem plays_setDC {s : State} (hs : s.Running) {m : Mode} {ops : List Micro} {l : List Byte} (hl : l ≠ [])
    (h : (s.setDC true).Plays m ops (dataEvents s.cs l)) : s.Plays m (.setDC true :: ops) (dataEvents s.cs l) := by
  have hplayed : (s.setDC true).played m (dataEvents s.cs l) = s.played m (dataEvents s.cs l) := by
    rw [played_dataEvents s m hl]
    exact played_dataEvents (s.setDC true) m hl
  refine ⟨fun hok => ?_, fun k hk hok herr => (runs_setDC hs true).fails (h.fails k hk hok herr)⟩
  rw [← hplayed]
  exact (runs_setDC hs true).cons (h.runs hok)

/-- Pixels, one burst each (43 R192). -/
theorem plays_pixelSteps {s : State} (hs : s.Running) (m : Mode) {ps : List Half} (hps : ps ≠ []) :
    s.Plays m (.setDC true :: pixelSteps ps m) (dataEvents s.cs (ps.flatMap px)) := by
  have hbursts := plays_bursts (s := s.setDC true) hs rfl m (n := 2) (ps.map fun p => .bytes (px p))
    (List.forall_mem_map.2 fun _ _ _ hk => hk)
  rw [List.flatMap_map, List.flatMap_map] at hbursts
  obtain ⟨p, ps, rfl⟩ := List.exists_cons_of_ne_nil hps
  exact plays_setDC hs (List.cons_ne_nil _ _) hbursts

/-! ### A window and its pixels -/

/-- A window sequence (42 R180): its last step, after its last frame, writes `WINDOW` (42 R181). -/
theorem draws_setWindowSteps {s : State} (hs : s.Running) (m : Mode) {w : Window} (hw : w.inPanel s.cfg.val = true) :
    s.Draws m (setWindowSteps s.cfg.val w m) (windowEvents s.cfg.val s.cs w)
      fun k => if k < 11 then (s.window, s.lineBuf) else (w, s.lineBuf) := by
  constructor
  · exact fun hok => runs_setWindowSteps hs m hw hok
  · intro k hk hok herr
    rw [length_frameLevels_windowEvents] at hk
    rw [if_pos hk]
    exact fails_setWindowSteps hs m w hk hok herr

/-- A window sequence, silent steps that leave `line` in `LINEBUF`, and data bytes in the window. -/
theorem draws_paint {s : State} (hs : s.Running) (m : Mode) {w : Window} (hw : w.inPanel s.cfg.val = true)
    {before pixels : List Micro} {line bytes : List Byte}
    (hbefore : ∀ t : State, t.Running → t.cfg = s.cfg → t.lineBuf = s.lineBuf → t.Runs before (t.withLineBuf line))
    (hpixels : ∀ t : State, t.Running → t.cfg = s.cfg → t.mem = s.mem → t.lineBuf = line →
      t.Plays m (.setDC true :: pixels) (dataEvents t.cs bytes)) :
    s.Draws m (setWindowSteps s.cfg.val w m ++ before ++ (.setDC true :: pixels))
      (windowEvents s.cfg.val s.cs w ++ dataEvents s.cs bytes)
      fun k => if k < 11 then (s.window, s.lineBuf) else (w, line) := by
  have hwindow := draws_setWindowSteps hs m hw
  have hlen := length_frameLevels_windowEvents s.cfg.val s.cs w
  generalize windowEvents s.cfg.val s.cs w = es at hwindow hlen ⊢
  have hsilent := hwindow.append (p := (w, s.lineBuf)) (by rw [hlen, if_neg (Nat.lt_irrefl 11)])
    (State.Runs.draws (p := (w, line)) (hbefore _ hs rfl rfl))
  have hdata := hsilent.append (p := (w, line)) (by rw [List.append_nil, hlen, if_neg (Nat.lt_irrefl 11)])
    (State.Plays.draws (hpixels _ hs rfl rfl rfl))
  rw [List.append_nil] at hdata
  refine hdata.congr fun k _ => ?_
  rw [hlen]
  split <;> rfl

end Sys2Proof.Machine

namespace Sys2Proof.Machine

/-! ### Requests in one select/unselect pair (43 R190) -/

/-- `s` after a draw request in mode `m` that has sent the events `es` between its select and its unselect and left `p`
in the draw registers (43 R190; 30 R115). -/
def State.drawn (s : State) (m : Mode) (es : List Event) (p : DrawRegs) : State :=
  { (s.played m es).withDraw p with
    cs := true
    trace := s.trace ++ s.lowEvents ++ es ++ [.csHigh]
    seq := .idle }

section Bracketed

variable {s : State} {i : Instr} {m : Mode} {start ops : List Micro} {es : List Event} {r : Nat → DrawRegs}
  (hs : s.Latched) (hplan : plan i s = .ok start) (hstart : s.Expands start (bracketed ops))
  (h : (s.setCS false).Draws m ops es r)
include hs hplan hstart h

theorem exec_drawn (hok : s.FramesOk (frameLevels es).length) :
    exec i s = .next (s.drawn m es (r (frameLevels es).length)) := by
  obtain ⟨-, htodo, -⟩ := id hs
  have hsteps := h.runs hok
  have hall := (runs_setCS hs.running false).cons (hsteps.append (runs_setCS hsteps.running true))
  rw [exec_of_runs hplan (hstart.runs hall), setCS_false_eq]
  simp [State.complete, State.setCS, State.drawn, State.withDraw, State.played, State.doneAfter, htodo]

theorem exec_drawFailed {k : Nat} (hk : k < (frameLevels es).length) (hok : s.FramesOk k) (herr : s.frame k = .err) :
    exec i s = .next ((s.failed m es k).withDraw (r k)) := by
  have hall := (runs_setCS hs.running false).fails ((h.fails k hk hok herr).append [.setCS true])
  rw [exec_of_fails hplan (hstart.fails hall), failed_eq]
  rfl

end Bracketed

/-- A request that is a no-op (43 R190). -/
theorem exec_passed {s : State} {i : Instr} (hs : s.Latched) (hplan : plan i s = .ok []) :
    exec i s = .next s.passed := by
  obtain ⟨-, htodo, -⟩ := id hs
  rw [exec_of_runs hplan (.nil hs.running), complete_eq htodo]
  rfl

/-! ### Requests that paint one rectangle (43 R193 to R199) -/

/-- The request `i` paints the rectangle of `w` by `h` pixels at `(x, y)` with `bytes`, as far as the frames complete,
and has `line` in `LINEBUF` once the window sequence is sent. -/
structure State.Paints (s : State) (i : Instr) (m : Mode) (x y w h : Nat) (bytes line : List Byte) : Prop where
  ok  : s.FramesOk (11 + bytes.length) → exec i s = .next ((s.painted m x y w h bytes).withLineBuf line)
  err : ∀ k, k < 11 + bytes.length → s.FramesOk k → s.frame k = .err →
    exec i s = .next ((s.paintFailed m x y w h bytes k).withLineBuf (if k < 11 then s.lineBuf else line))

/-- The events of a window and the data bytes in it, sent while selected. -/
def paintEvents (c : Config) (w : Window) (bytes : List Byte) : List Event :=
  windowEvents c false w ++ dataEvents false bytes

theorem frameLevels_paintEvents (c : Config) (w : Window) (bytes : List Byte) :
    frameLevels (paintEvents c w bytes) = frameLevels (windowEvents c false w) ++ List.replicate bytes.length true := by
  rw [paintEvents, frameLevels_append, frameLevels_dataEvents]

theorem length_frameLevels_paintEvents (c : Config) (w : Window) (bytes : List Byte) :
    (frameLevels (paintEvents c w bytes)).length = 11 + bytes.length := by
  rw [frameLevels_paintEvents, List.length_append, length_frameLevels_windowEvents, List.length_replicate]

theorem drawn_eq_painted (s : State) (m : Mode) (x y w h : Nat) {bytes : List Byte} (hbytes : bytes ≠ [])
    (line : List Byte) :
    s.drawn m (paintEvents s.cfg.val (rectWindow x y w h) bytes) (rectWindow x y w h, line) =
      (s.painted m x y w h bytes).withLineBuf line := by
  rw [State.drawn, State.played, length_frameLevels_paintEvents, frameLevels_paintEvents]
  simp [paintEvents, State.painted, State.withDraw, State.withLineBuf, hbytes, List.getLast?_replicate]

theorem paints_of_plan {s : State} {i : Instr} {m : Mode} {x y w h : Nat} {before pixels : List Micro}
    {bytes line : List Byte} (hs : s.Latched) (hplan : plan i s = .ok (paintSteps s.cfg.val m x y w h before pixels))
    (hw : (rectWindow x y w h).inPanel s.cfg.val = true) (hbytes : bytes ≠ [])
    (hbefore : ∀ t : State, t.Running → t.cfg = s.cfg → t.lineBuf = s.lineBuf → t.Runs before (t.withLineBuf line))
    (hpixels : ∀ t : State, t.Running → t.cfg = s.cfg → t.mem = s.mem → t.lineBuf = line →
      t.Plays m (.setDC true :: pixels) (dataEvents t.cs bytes)) :
    s.Paints i m x y w h bytes line := by
  have hdraws : (s.setCS false).Draws m _ (paintEvents s.cfg.val (rectWindow x y w h) bytes) fun k =>
      if k < 11 then (s.window, s.lineBuf) else (rectWindow x y w h, line) :=
    draws_paint (s := s.setCS false) hs.running m hw hbefore hpixels
  have hframes := length_frameLevels_paintEvents s.cfg.val (rectWindow x y w h) bytes
  refine ⟨fun hok => ?_, fun k hk hok herr => ?_⟩
  · rw [exec_drawn hs hplan (expands_refl s _) hdraws (hframes ▸ hok), if_neg (by omega),
      drawn_eq_painted s m x y w h hbytes]
  · rw [exec_drawFailed hs hplan (expands_refl s _) hdraws (hframes ▸ hk) hok herr]
    by_cases hlt : k < 11 <;> simp [State.paintFailed, State.withDraw, State.withLineBuf, hlt, paintEvents]

end Sys2Proof.Machine

namespace Sys2Proof.Machine

/-! ### Fills (43 R194, R195) -/

/-- A rectangle painted with `LINEBUF` left alone. -/
theorem paints_of_pixels {s : State} {i : Instr} {m : Mode} {x y w h : Nat} {pixels : List Micro} {bytes : List Byte}
    (hs : s.Latched) (hplan : plan i s = .ok (paintSteps s.cfg.val m x y w h [] pixels))
    (hw : (rectWindow x y w h).inPanel s.cfg.val = true) (hbytes : bytes ≠ [])
    (hpixels : ∀ t : State, t.Running → t.cfg = s.cfg → t.mem = s.mem →
      t.Plays m (.setDC true :: pixels) (dataEvents t.cs bytes)) : s.Paints i m x y w h bytes s.lineBuf :=
  paints_of_plan hs hplan hw hbytes (fun _ ht _ hline => hline ▸ .nil ht) fun t ht hcfg hmem _ => hpixels t ht hcfg hmem

theorem pixelBytes_succ (n : Nat) (color : Half) : pixelBytes (n + 1) color = pixelBytes n color ++ px color := by
  simp [pixelBytes, List.replicate_succ']

theorem pixelBytes_ne_nil {n : Nat} (hn : 1 ≤ n) (color : Half) : pixelBytes n color ≠ [] := by
  rw [← List.length_pos_iff, length_pixelBytes]
  omega

/-- `h` scanlines of `w` pixels each. -/
theorem flatten_replicate_pixelBytes (w h : Nat) (color : Half) :
    (List.replicate h (pixelBytes w color)).flatten = pixelBytes (w * h) color := by
  induction h with
  | zero => rfl
  | succ h ih =>
    rw [List.replicate_succ', List.flatten_append, ih, Nat.mul_succ, List.flatten_singleton, pixelBytes, pixelBytes,
      pixelBytes, List.replicate_add, List.flatten_append]

/-- FILL_RECT, the rectangle clipped (43 R194). -/
theorem paints_fillSteps {s : State} {i : Instr} {m : Mode} {x y w h w' h' : Nat} {color : Half} (hs : s.Latched)
    (hplan : plan i s = .ok (fillSteps s.cfg.val m x y w h color)) (hclip : clip s.cfg.val x y w h = some (w', h')) :
    s.Paints i m x y w' h' (pixelBytes (w' * h') color) s.lineBuf := by
  obtain ⟨hw, -, hx, hh, -, hy⟩ := clip_some hclip
  have harea : 1 ≤ w' * h' := Nat.mul_pos hw hh
  rw [fillSteps, hclip] at hplan
  refine paints_of_pixels hs hplan (rectWindow_inPanel s.cfg.property hw hx hh hy) (pixelBytes_ne_nil harea color) ?_
  intro t ht _ _
  rw [← flatMap_px_replicate, Nat.mul_comm]
  exact plays_pixelSteps ht m (by simp; omega)

theorem runs_lineByte {s : State} (hs : s.Running) {k : Nat} (hk : k < 2 * s.cfg.val.panelW) (b : Byte) :
    s.Runs [.lineByte k b] (s.withLineBuf (s.lineBuf.set k b)) :=
  .of_seqStep hs hk hs fun _ => rfl

theorem lineFill_succ (color : Half) (w : Nat) :
    lineFill color (w + 1) = lineFill color w ++ [.lineByte (2 * w) (hi color), .lineByte (2 * w + 1) (lo color)] := by
  simp [lineFill, List.range_succ]

/-- One more pixel of the scanline. -/
theorem set_scanline (color : Half) {w : Nat} {line : List Byte} (hlen : 2 * (w + 1) ≤ line.length) :
    ((pixelBytes w color ++ line.drop (2 * w)).set (2 * w) (hi color)).set (2 * w + 1) (lo color) =
      pixelBytes (w + 1) color ++ line.drop (2 * (w + 1)) := by
  rw [List.drop_eq_getElem_cons (i := 2 * w) (by omega), List.drop_eq_getElem_cons (i := 2 * w + 1) (by omega)]
  simp [pixelBytes_succ, px, wireHalf, Nat.mul_succ, -List.getElem_cons_drop]

/-- The scanline of `w` pixels is built over the first `2 * w` bytes of `LINEBUF` (43 R195). -/
theorem runs_lineFill {s : State} (hs : s.Running) (color : Half) {w : Nat} (hw : w ≤ s.cfg.val.panelW)
    (hlen : 2 * w ≤ s.lineBuf.length) :
    s.Runs (lineFill color w) (s.withLineBuf (pixelBytes w color ++ s.lineBuf.drop (2 * w))) := by
  induction w with
  | zero => exact .nil hs
  | succ w ih =>
    have hk : 2 * w + 1 < 2 * s.cfg.val.panelW := by omega
    have hhead := ih (by omega) (by omega)
    have hhigh := runs_lineByte hhead.running (Nat.lt_of_succ_lt hk) (hi color)
    rw [lineFill_succ, ← set_scanline color hlen]
    exact hhead.append (hhigh.append (runs_lineByte hhigh.running hk (lo color)))

theorem map_srcByte_lineBuf {s : State} {l rest : List Byte} (hline : s.lineBuf = l ++ rest) :
    (List.range l.length).map (s.srcByte .lineBuf) = l := by
  refine List.ext_getElem (by simp) fun k _ hk => ?_
  simp [State.srcByte, hline, List.getElem?_append_left hk, hk]

/-- FILL_RECT_FAST, the rectangle clipped (43 R195). -/
theorem paints_fillFastSteps {s : State} {i : Instr} {m : Mode} {x y w h w' h' : Nat} {color : Half} (hs : s.Latched)
    (hplan : plan i s = .ok (fillFastSteps s.cfg.val m x y w h color))
    (hclip : clip s.cfg.val x y w h = some (w', h')) (hlen : s.lineBuf.length = 2 * s.cfg.val.panelW) :
    s.Paints i m x y w' h' (pixelBytes (w' * h') color) (pixelBytes w' color ++ s.lineBuf.drop (2 * w')) := by
  obtain ⟨hw, -, hx, hh, -, hy⟩ := clip_some hclip
  have hne := pixelBytes_ne_nil (Nat.mul_pos hw hh) color
  rw [fillFastSteps, hclip] at hplan
  refine paints_of_plan hs hplan (rectWindow_inPanel s.cfg.property hw hx hh hy) hne ?_ ?_
  · intro t ht hcfg hline
    rw [← hline]
    exact runs_lineFill ht color (by rw [hcfg]; omega) (by rw [hline]; omega)
  · intro t ht hcfg _ hline
    refine plays_setDC ht hne ?_
    have hscan := map_srcByte_lineBuf (s := t.setDC true) hline
    rw [length_pixelBytes] at hscan
    have hbursts := plays_bursts (s := t.setDC true) ht rfl m (n := 2 * w') (List.replicate h' .lineBuf) ?_
    · simpa [List.flatMap, hscan, flatten_replicate_pixelBytes] using hbursts
    · intro src hsrc k hk
      rw [List.eq_of_mem_replicate hsrc]
      show k < 2 * t.cfg.val.panelW
      rw [hcfg]
      omega

end Sys2Proof.Machine

namespace Sys2Proof.Machine

/-- Settles O14: a 1 by 1 rectangle and one burst, or no step off the panel. -/
theorem drawPixelPaints : Obligations.DrawPixelPaints := by
  intro m x y color
  refine ⟨by simpa [encode, w0Of_eq_or, pair, single] using decodeOfEncode (.drawPixel m x y color),
    fun s hs hready => ?_⟩
  have hpaints (hx : x.toNat < s.cfg.val.panelW) (hy : y.toNat < s.cfg.val.panelH) :
      s.Paints (.drawPixel m x y color) m x.toNat y.toNat 1 1 [hi color, lo color] s.lineBuf := by
    have hplan : plan (.drawPixel m x y color) s =
        .ok (paintSteps s.cfg.val m x.toNat y.toNat 1 1 [] (burstBytes (px color) m)) := by
      simp [plan, planDrawPixel, hready, Nat.not_le.2 hx, Nat.not_le.2 hy]
    exact paints_of_pixels hs hplan (rectWindow_inPanel s.cfg.property (Nat.le_refl 1) hx (Nat.le_refl 1) hy)
      (List.cons_ne_nil _ _) fun t ht _ _ => plays_burstBytes ht m (l := px color) (List.cons_ne_nil _ _)
  refine ⟨fun ⟨hx, hy⟩ => (hpaints hx hy).ok, fun k ⟨hx, hy⟩ hk hok herr => ?_, fun hoff => ?_⟩
  · rw [(hpaints hx hy).err k hk hok herr, ite_self]
    rfl
  · exact exec_passed hs (by simp [plan, planDrawPixel, hready, hoff])

theorem clip_inside {c : Config} {x y w h : Nat} (hx : x < c.panelW) (hy : y < c.panelH) :
    clip c x y w h = if min w (c.panelW - x) = 0 ∨ min h (c.panelH - y) = 0 then none
      else some (min w (c.panelW - x), min h (c.panelH - y)) :=
  if_neg (by omega)

theorem clip_outside {c : Config} {x y : Nat} (w h : Nat) (hout : c.panelW ≤ x ∨ c.panelH ≤ y) :
    clip c x y w h = none := if_pos hout

/-- Settles O15: the clipped rectangle is painted, one burst per pixel. -/
theorem fillRectPaints : Obligations.FillRectPaints := by
  intro m x y w h color s hs hready
  have hplan : plan (.fillRect m x y w h color) s =
      .ok (fillSteps s.cfg.val m x.toNat y.toNat w.toNat h.toNat color) := whenReady_ready s _ hready
  have hpassed (hclip : clip s.cfg.val x.toNat y.toNat w.toNat h.toNat = none) :=
    exec_passed hs (hplan.trans (by rw [fillSteps, hclip]))
  refine ⟨fun w' h' hw' hh' hx hy => ?_, fun hout => hpassed (clip_outside _ _ hout)⟩
  have hclip := clip_inside (w := w.toNat) (h := h.toNat) hx hy
  rw [← hw', ← hh'] at hclip
  have hpaints (hw : 0 < w') (hh : 0 < h') := paints_fillSteps hs hplan (hclip.trans (if_neg (by omega)))
  refine ⟨fun hw hh hok => ?_, fun k hw hh hk hok herr => ?_, fun hempty => hpassed (hclip.trans (if_pos hempty))⟩
  · exact (hpaints hw hh).ok (by rwa [length_pixelBytes])
  · rw [(hpaints hw hh).err k (by rwa [length_pixelBytes]) hok herr, ite_self]
    rfl

/-- Settles O16: the clipped rectangle is painted, one burst of the scanline in `LINEBUF` per row. -/
theorem fillRectFastPaints : Obligations.FillRectFastPaints := by
  intro m x y w h color s hs hready hlen
  have hplan : plan (.fillRectFast m x y w h color) s =
      .ok (fillFastSteps s.cfg.val m x.toNat y.toNat w.toNat h.toNat color) := whenReady_ready s _ hready
  have hpassed (hclip : clip s.cfg.val x.toNat y.toNat w.toNat h.toNat = none) :=
    exec_passed hs (hplan.trans (by rw [fillFastSteps, hclip]))
  refine ⟨fun w' h' hw' hh' hx hy => ?_, fun hout => hpassed (clip_outside _ _ hout)⟩
  have hclip := clip_inside (w := w.toNat) (h := h.toNat) hx hy
  rw [← hw', ← hh'] at hclip
  have hpaints (hw : 0 < w') (hh : 0 < h') := paints_fillFastSteps hs hplan (hclip.trans (if_neg (by omega))) hlen
  refine ⟨fun hw hh hok => ?_, fun k hw hh hk hok herr => ?_, fun hempty => hpassed (hclip.trans (if_pos hempty))⟩
  · exact (hpaints hw hh).ok (by rwa [length_pixelBytes])
  · exact (hpaints hw hh).err k (by rwa [length_pixelBytes]) hok herr

/-- The whole panel is its own clipping (43 R198). -/
theorem clip_panel (p : Platform) :
    clip p.val 0 0 p.val.panelW p.val.panelH = some (p.val.panelW, p.val.panelH) := by
  obtain ⟨hw, -, hh, -⟩ := (configAdmitted_iff p.val).1 p.property
  rw [clip_inside hw hh, if_neg (by omega)]
  simp

/-- Settles O19: both fills of the whole panel. -/
theorem fillScreenPaints : Obligations.FillScreenPaints := by
  intro m color s hs hready
  have hplan : plan (.fillScreen m color) s =
      .ok (fillSteps s.cfg.val m 0 0 s.cfg.val.panelW s.cfg.val.panelH color) := whenReady_ready s _ hready
  have hplanFast : plan (.fillScreenFast m color) s =
      .ok (fillFastSteps s.cfg.val m 0 0 s.cfg.val.panelW s.cfg.val.panelH color) := whenReady_ready s _ hready
  have hpaints := paints_fillSteps hs hplan (clip_panel s.cfg)
  have hpaintsFast (hlen : s.lineBuf.length = 2 * s.cfg.val.panelW) :=
    paints_fillFastSteps hs hplanFast (clip_panel s.cfg) hlen
  have hline (hlen : s.lineBuf.length = 2 * s.cfg.val.panelW) :
      pixelBytes s.cfg.val.panelW color ++ s.lineBuf.drop (2 * s.cfg.val.panelW) =
        pixelBytes s.cfg.val.panelW color := by
    rw [← hlen, List.drop_length, List.append_nil]
  dsimp only
  rw [← length_pixelBytes (s.cfg.val.panelW * s.cfg.val.panelH) color]
  refine ⟨fun hok => ⟨hpaints.ok hok, fun hlen => ?_⟩, fun k hk hok herr => ⟨?_, fun hlen => ?_⟩⟩
  · rw [(hpaintsFast hlen).ok hok, hline hlen]
    rfl
  · rw [hpaints.err k hk hok herr, ite_self]
    rfl
  · rw [(hpaintsFast hlen).err k hk hok herr, hline hlen]
    rfl

/-! ### DRAW_IMAGE (43 R197) -/

/-- The bytes of the visible part of an image, row by row. -/
theorem map_srcByte_crop (s : State) (a w w' h' : Nat) :
    (List.range (2 * w' * h')).map (s.srcByte (.crop a w w')) = s.cropBytes a w w' h' := by
  refine Eq.trans (List.map_congr_left fun k _ => ?_)
    (map_range_mul (2 * w') h' fun col row => Mem.read s.mem (a + 2 * (row * w) + col))
  rw [Nat.mod_mul, ← Nat.div_div_eq_div_mul, State.srcByte]
  congr 1
  ring

/-- A rectangle painted in one burst from host memory. -/
theorem paints_burst {s : State} {i : Instr} {m : Mode} {x y w h n : Nat} {src : Src} {bytes : List Byte}
    (hs : s.Latched) (hplan : plan i s = .ok (paintSteps s.cfg.val m x y w h [] (burst src n m)))
    (hw : (rectWindow x y w h).inPanel s.cfg.val = true) (hn : 0 < n) (hin : ∀ k, k < n → src.InRange s.cfg.val k)
    (hbytes : ∀ t : State, t.mem = s.mem → (List.range n).map (t.srcByte src) = bytes) :
    s.Paints i m x y w h bytes s.lineBuf := by
  have hne : bytes ≠ [] := by
    rw [← hbytes s rfl]
    simp
    omega
  refine paints_of_pixels hs hplan hw hne fun t ht hcfg hmem => plays_setDC ht hne ?_
  rw [← hbytes (t.setDC true) hmem]
  exact plays_burst (s := t.setDC true) ht rfl m fun k hk => hcfg ▸ hin k hk

@[simp] theorem length_cropBytes (s : State) (a w w' h' : Nat) : (s.cropBytes a w w' h').length = 2 * (w' * h') := by
  rw [← map_srcByte_crop, List.length_map, List.length_range, Nat.mul_assoc]

section Image

variable {s : State} (m : Mode) {x y w h : Half} {addr : Word} (hs : s.Latched) (hready : s.pstate = .ready)
include hs hready

/-- DRAW_IMAGE of a rectangle inside the panel. -/
theorem paints_wholeImage (hclip : clip s.cfg.val x.toNat y.toNat w.toNat h.toNat = some (w.toNat, h.toNat))
    (hbuf : bufOK s.cfg.val addr.toNat (2 * w.toNat * h.toNat) = true) :
    s.Paints (.drawImage m x y w h addr) m x.toNat y.toNat w.toNat h.toNat
      (s.memBytes addr.toNat (2 * w.toNat * h.toNat)) s.lineBuf := by
  obtain ⟨hw, -, hx, hh, -, hy⟩ := clip_some hclip
  have hplan : plan (.drawImage m x y w h addr) s = .ok (paintSteps s.cfg.val m x.toNat y.toNat w.toNat h.toNat []
      (burst (.mem addr.toNat) (2 * w.toNat * h.toNat) m)) := by
    simp [plan, planDrawImage, hready, hclip, hbuf]
  refine paints_burst hs hplan (rectWindow_inPanel s.cfg.property hw hx hh hy) (Nat.mul_pos (by omega) hh)
    (bufOK_inRange hbuf) fun t hmem => ?_
  rw [map_srcByte_mem, State.memBytes, hmem, State.memBytes]

/-- DRAW_IMAGE with `crop` of a rectangle partly outside. -/
theorem paints_visibleImage {w' h' : Nat} (hclip : clip s.cfg.val x.toNat y.toNat w.toNat h.toNat = some (w', h'))
    (hpart : (w', h') ≠ (w.toNat, h.toNat)) (hcrop : s.cfg.val.imageClipMode = .crop)
    (hbuf : bufOK s.cfg.val addr.toNat (2 * w.toNat * h.toNat) = true) :
    s.Paints (.drawImage m x y w h addr) m x.toNat y.toNat w' h' (s.cropBytes addr.toNat w.toNat w' h') s.lineBuf := by
  obtain ⟨hw, hw', hx, hh, hh', hy⟩ := clip_some hclip
  rw [Ne, Prod.mk.injEq] at hpart
  have hplan : plan (.drawImage m x y w h addr) s = .ok (paintSteps s.cfg.val m x.toNat y.toNat w' h' []
      (burst (.crop addr.toNat w.toNat w') (2 * w' * h') m)) := by
    simp [plan, planDrawImage, hready, hclip, hbuf, hcrop, hpart]
  refine paints_burst hs hplan (rectWindow_inPanel s.cfg.property hw hx hh hy) (Nat.mul_pos (by omega) hh)
    (bufOK_crop_inRange hbuf hw' hh') fun t hmem => ?_
  simp only [map_srcByte_crop, State.cropBytes, State.memBytes, hmem]

end Image

/-- Settles O17: the buffer in one burst when the rectangle is inside; else nothing, or its visible part. -/
theorem drawImagePaints : Obligations.DrawImagePaints := by
  intro m x y w h addr s hs hready
  rw [← Nat.mul_assoc]
  refine ⟨fun hclip => ?_, fun hclip hbuf hok => ?_, fun k hclip hbuf hk hok herr => ?_,
    fun w' h' hclip hpart => ⟨fun hskip => ?_, fun hcrop hbuf hok => ?_, fun k hcrop hbuf hk hok herr => ?_⟩⟩
  · exact exec_passed hs (by simp [plan, planDrawImage, hready, hclip])
  · exact (paints_wholeImage m hs hready hclip hbuf).ok (by rwa [length_memBytes])
  · rw [(paints_wholeImage m hs hready hclip hbuf).err k (by rwa [length_memBytes]) hok herr, ite_self]
    rfl
  · rw [Ne, Prod.mk.injEq] at hpart
    exact exec_passed hs (by simp [plan, planDrawImage, hready, hclip, hpart, hskip])
  · exact (paints_visibleImage m hs hready hclip hpart hcrop hbuf).ok (by rwa [length_cropBytes])
  · rw [(paints_visibleImage m hs hready hclip hpart hcrop hbuf).err k (by rwa [length_cropBytes]) hok herr, ite_self]
    rfl

end Sys2Proof.Machine

/-! ## WRITE_STRING (43 R200 to R204) -/

namespace Sys2Proof.Machine

/-! ### The string is found -/

theorem memBytes_succ (s : State) (a n : Nat) : s.memBytes a (n + 1) = Mem.read s.mem a :: s.memBytes (a + 1) n := by
  simp [State.memBytes, List.range_succ_eq_map, Nat.add_assoc, Nat.add_comm 1]

/-- `StrLen` reads on to the NUL and puts the drawing of the string in its place (43 R204). -/
theorem expands_strScan {s : State} (hs : s.Running) (t : Text) (x y : Nat) {n : Nat} {str : List Byte}
    (hstr : s.memBytes (t.addr + n) str.length = str) (hne : ∀ ch ∈ str, ch ≠ 0)
    (hnul : Mem.read s.mem (t.addr + n + str.length) = 0) (hin : t.addr + n + str.length < s.cfg.val.hostMemSize) :
    s.Expands [.strScan t x y n] (bracketed [.strDraw t (n + str.length) 0 x y false]) := by
  induction str generalizing n with
  | nil =>
    refine .of_seqStep hs trivial fun rest => ?_
    exact (if_neg (Nat.not_le.2 hin)).trans (if_pos hnul)
  | cons ch str ih =>
    rw [List.length_cons] at hstr hnul hin ⊢
    rw [memBytes_succ, List.cons.injEq] at hstr
    obtain ⟨hch, hstr⟩ := hstr
    obtain ⟨hch0, hne⟩ := List.forall_mem_cons.1 hne
    have hon : s.Expands [.strScan t x y n] [.strScan t x y (n + 1)] := by
      refine .of_seqStep hs trivial fun rest => ?_
      exact (if_neg (by show ¬ s.cfg.val.hostMemSize ≤ t.addr + n; omega)).trans (if_neg (hch ▸ hch0))
    rw [← Nat.add_assoc, Nat.add_right_comm] at hnul hin
    have hrest := ih (n := n + 1) hstr hne hnul hin
    rw [Nat.add_right_comm, Nat.add_assoc] at hrest
    exact hon.trans hrest

/-! ### Its cells, one turn of the loop each -/

/-- Where the next cell starts, and whether it is at a line start: the wrap rule (43 R200). -/
def wrapped (c : Config) (f : Font) (x y : Nat) (atLineStart : Bool) : Nat × Nat × Bool :=
  if c.panelW < x + f.width then (0, y + f.height, true) else (x, y, atLineStart)

theorem layout_cons (c : Config) (f : Font) (ch : Byte) (str : List Byte) (x y : Nat) (a : Bool) :
    layout c f (ch :: str) x y a =
      let (x', y', a') := wrapped c f x y a
      if c.panelW < f.width ∨ c.panelH < y' + f.height then []
      else if a' ∧ ch = 0x20 then layout c f str x' y' a'
      else (ch, x', y') :: layout c f str (x' + f.width) y' false := by
  by_cases hwrap : c.panelW < x + f.width <;> by_cases hw : c.panelW < f.width <;>
    simp [layout, wrapped, hwrap, hw]

/-- What a turn of WRITE_STRING's loop puts in its place when the character is `ch` (43 R200). -/
def drawTurn (c : Config) (t : Text) (len i : Nat) (ch : Byte) (x y : Nat) (a : Bool) : List Micro :=
  let f := font c t.font
  let (x', y', a') := wrapped c f x y a
  if c.panelW < f.width ∨ c.panelH < y' + f.height then []
  else if a' ∧ ch = 0x20 then [.strDraw t len (i + 1) x' y' a']
  else glyphSteps c t ch x' y' ++ [.strDraw t len (i + 1) (x' + f.width) y' false]

theorem strDrawStep_eq (s : State) (rest : List Micro) {t : Text} {len i : Nat} (hi : i < len) (x y : Nat) (a : Bool) :
    s.strDrawStep rest t len i x y a =
      s.withTodo (drawTurn s.cfg.val t len i (Mem.read s.mem (t.addr + i)) x y a ++ rest) := by
  by_cases hwrap : s.cfg.val.panelW < x + (font s.cfg.val t.font).width
  all_goals
    simp only [State.strDrawStep, drawTurn, wrapped, hwrap, Nat.not_le.2 hi, decide_true, decide_false, Bool.or_true,
      Bool.or_false, Bool.false_eq_true, reduceIte, ite_or]
    split_ifs <;> simp [State.withTodo]

theorem expands_strDraw {s : State} (hs : s.Running) (t : Text) {len i : Nat} (hi : i < len)
    (hin : t.addr + len ≤ s.cfg.val.hostMemSize) (x y : Nat) (a : Bool) :
    s.Expands [.strDraw t len i x y a] (drawTurn s.cfg.val t len i (Mem.read s.mem (t.addr + i)) x y a) :=
  .of_seqStep hs hin fun rest => strDrawStep_eq (s.withTodo rest) rest hi x y a

/-- At the end of the string the loop is over. -/
theorem expands_strDraw_end {s : State} (hs : s.Running) (t : Text) {len : Nat}
    (hin : t.addr + len ≤ s.cfg.val.hostMemSize) (x y : Nat) (a : Bool) : s.Expands [.strDraw t len len x y a] [] :=
  .of_seqStep hs hin fun _ => if_pos (Nat.le_refl len)

/-! ### The frames of the cells -/

section Cells

variable (c : Config) (f : Font) (fg bg : Half)

/-- The frames of one cell: a window sequence, and two bytes for each pixel (43 R201). -/
def cellSize (f : Font) : Nat := 11 + 2 * (f.width * f.height)

theorem length_flatMap_px (ps : List Half) : (ps.flatMap px).length = 2 * ps.length := by
  simp [px, wireHalf, Nat.mul_comm]

theorem frameLevels_cellEvents (g : Byte × Nat × Nat) :
    frameLevels (cellEvents c f fg bg g) =
      frameLevels (windowEvents c false (cellWindow f g)) ++ List.replicate (2 * (f.width * f.height)) true := by
  rw [← length_glyphPixels f g.1.toNat fg bg, ← length_flatMap_px]
  exact frameLevels_paintEvents c (cellWindow f g) _

theorem length_frameLevels_cellEvents (g : Byte × Nat × Nat) :
    (frameLevels (cellEvents c f fg bg g)).length = cellSize f := by
  rw [frameLevels_cellEvents, List.length_append, length_frameLevels_windowEvents, List.length_replicate]
  rfl

theorem length_frameLevels_cells (cells : List (Byte × Nat × Nat)) :
    (frameLevels (cells.flatMap (cellEvents c f fg bg))).length = cells.length * cellSize f := by
  induction cells with
  | nil => simp
  | cons g cells ih =>
    rw [List.flatMap_cons, frameLevels_append, List.length_append, length_frameLevels_cellEvents, ih, List.length_cons,
      Nat.succ_mul, Nat.add_comm]

theorem contains_frameLevels_cells (cells : List (Byte × Nat × Nat)) :
    (frameLevels (cells.flatMap (cellEvents c f fg bg))).contains true = !cells.isEmpty := by
  cases cells with
  | nil => rfl
  | cons g cells =>
    have hwindow : (frameLevels (windowEvents c false (cellWindow f g))).contains true = true := rfl
    rw [List.flatMap_cons, frameLevels_append, frameLevels_cellEvents]
    simp_all

/-- The last frame of a cell is one of a data byte. -/
theorem getLastD_frameLevels_cells (hf : 0 < f.width * f.height) (cells : List (Byte × Nat × Nat)) (dc : Bool) :
    (frameLevels (cells.flatMap (cellEvents c f fg bg))).getLastD dc = if cells = [] then dc else true := by
  induction cells generalizing dc with
  | nil => rfl
  | cons g cells ih =>
    rw [List.flatMap_cons, frameLevels_append, frameLevels_cellEvents, if_neg (List.cons_ne_nil g cells)]
    have hlast := ih true
    rw [ite_self, List.getLastD_eq_getLast?] at hlast
    have hpixels : f.width * f.height ≠ 0 := by omega
    simpa [List.getLast?_append, List.getLast?_replicate, hpixels] using hlast

end Cells

/-! ### `WINDOW` as the cells are drawn (42 R181) -/

/-- `WINDOW` once the window sequences of `cells` have been sent, from `w`. -/
def lastWindow (f : Font) (w : Window) (cells : List (Byte × Nat × Nat)) : Window :=
  match cells.getLast? with
  | some g => cellWindow f g
  | none => w

theorem lastWindow_cons (f : Font) (w : Window) (g : Byte × Nat × Nat) (cells : List (Byte × Nat × Nat)) :
    lastWindow f w (g :: cells) = lastWindow f (cellWindow f g) cells := by
  rw [lastWindow, lastWindow, List.getLast?_cons]
  cases cells.getLast? <;> rfl

/-- How many window sequences have been sent before frame `k`. -/
def windowsSent (f : Font) (k : Nat) : Nat := (k + cellSize f - 11) / cellSize f

theorem windowsSent_of_lt_eleven (f : Font) {k : Nat} (hk : k < 11) : windowsSent f k = 0 :=
  Nat.div_eq_of_lt (by rw [cellSize]; omega)

theorem windowsSent_of_lt {f : Font} {k : Nat} (hk : 11 ≤ k) (hlt : k < cellSize f) : windowsSent f k = 1 :=
  Nat.div_eq_of_lt_le (by omega) (by omega)

theorem windowsSent_add (f : Font) (k : Nat) : windowsSent f (cellSize f + k) = windowsSent f k + 1 := by
  have hsize : 11 ≤ cellSize f := Nat.le_add_right 11 _
  rw [windowsSent, show cellSize f + k + cellSize f - 11 = k + cellSize f - 11 + cellSize f by omega,
    Nat.add_div_right _ (by omega)]
  rfl

theorem windowsSent_mul (f : Font) (n : Nat) : windowsSent f (n * cellSize f) = n := by
  induction n with
  | zero => rw [Nat.zero_mul, windowsSent_of_lt_eleven f (by omega)]
  | succ n ih => rw [Nat.succ_mul, Nat.add_comm, windowsSent_add, ih]

/-! ### The drawing of the string -/

/-- One cell (43 R201). -/
theorem draws_glyphSteps {s : State} (hs : s.Running) (hcs : s.cs = false) (t : Text) (ch : Byte) {x y : Nat}
    (hx : x + (font s.cfg.val t.font).width ≤ s.cfg.val.panelW)
    (hy : y + (font s.cfg.val t.font).height ≤ s.cfg.val.panelH) :
    s.Draws t.mode (glyphSteps s.cfg.val t ch x y)
      (cellEvents s.cfg.val (font s.cfg.val t.font) t.fg t.bg (ch, x, y))
      fun k => if k < 11 then (s.window, s.lineBuf)
        else (cellWindow (font s.cfg.val t.font) (ch, x, y), s.lineBuf) := by
  obtain ⟨hw, -, hh⟩ := font_admitted s.cfg.property t.font
  have hpixels : glyphPixels (font s.cfg.val t.font) ch.toNat t.fg t.bg ≠ [] := by
    rw [← List.length_pos_iff, length_glyphPixels]
    exact Nat.mul_pos hw hh
  have hpaint := draws_paint (before := []) (line := s.lineBuf) hs t.mode
    (rectWindow_inPanel s.cfg.property hw hx hh hy) (fun u hu _ hline => hline ▸ .nil hu)
    fun u hu _ _ _ => plays_pixelSteps hu t.mode hpixels
  rw [List.append_nil, hcs] at hpaint
  exact hpaint

/-- From `s`, the step list `ops` of the string drawing `t` draws the glyph cells `cells` in order. -/
def State.DrawsCells (s : State) (t : Text) (ops : List Micro) (cells : List (Byte × Nat × Nat)) : Prop :=
  s.Draws t.mode ops (cells.flatMap (cellEvents s.cfg.val (font s.cfg.val t.font) t.fg t.bg)) fun k =>
    (lastWindow (font s.cfg.val t.font) s.window (cells.take (windowsSent (font s.cfg.val t.font) k)), s.lineBuf)

theorem drawsCells_nil {s : State} (hs : s.Running) (t : Text) : s.DrawsCells t [] [] :=
  (plays_nil hs t.mode).draws.congr fun k _ => by rw [List.take_nil]; rfl

theorem State.Expands.drawsCells {s : State} {t : Text} {ops ops' : List Micro} {cells : List (Byte × Nat × Nat)}
    (h : s.Expands ops ops') (hcells : s.DrawsCells t ops' cells) : s.DrawsCells t ops cells := h.draws hcells

/-- `s` once the cell `g` has been drawn. -/
def State.cellDrawn (s : State) (t : Text) (g : Byte × Nat × Nat) : State :=
  (s.played t.mode (cellEvents s.cfg.val (font s.cfg.val t.font) t.fg t.bg g)).withDraw
    (cellWindow (font s.cfg.val t.font) g, s.lineBuf)

section CellDrawn

variable (s : State) (m : Mode) (es : List Event) (p : DrawRegs) (t : Text) (g : Byte × Nat × Nat)

theorem withDraw_played_running {s : State} (hs : s.Running) : ((s.played m es).withDraw p).Running := hs
theorem withDraw_played_cfg : ((s.played m es).withDraw p).cfg = s.cfg := rfl
theorem withDraw_played_cs : ((s.played m es).withDraw p).cs = s.cs := rfl
theorem withDraw_played_mem : ((s.played m es).withDraw p).mem = s.mem := rfl
theorem withDraw_lineBuf : (s.withDraw p).lineBuf = p.2 := rfl
theorem withDraw_window : (s.withDraw p).window = p.1 := rfl

theorem cellDrawn_running {s : State} (hs : s.Running) : (s.cellDrawn t g).Running := withDraw_played_running _ _ _ hs
@[simp] theorem cellDrawn_cfg : (s.cellDrawn t g).cfg = s.cfg := withDraw_played_cfg ..
@[simp] theorem cellDrawn_cs : (s.cellDrawn t g).cs = s.cs := withDraw_played_cs ..
@[simp] theorem cellDrawn_lineBuf : (s.cellDrawn t g).lineBuf = s.lineBuf := withDraw_lineBuf ..
@[simp] theorem cellDrawn_window : (s.cellDrawn t g).window = cellWindow (font s.cfg.val t.font) g := withDraw_window ..

@[simp] theorem cellDrawn_memBytes (a n : Nat) : (s.cellDrawn t g).memBytes a n = s.memBytes a n := by
  rw [State.memBytes, State.cellDrawn, withDraw_played_mem, State.memBytes]

end CellDrawn

/-- A cell and those after it. -/
theorem drawsCells_cons {s : State} (hs : s.Running) (hcs : s.cs = false) (t : Text) (ch : Byte) {x y : Nat}
    (hx : x + (font s.cfg.val t.font).width ≤ s.cfg.val.panelW)
    (hy : y + (font s.cfg.val t.font).height ≤ s.cfg.val.panelH) {ops : List Micro} {cells : List (Byte × Nat × Nat)}
    (hcells : (s.cellDrawn t (ch, x, y)).DrawsCells t ops cells) :
    s.DrawsCells t (glyphSteps s.cfg.val t ch x y ++ ops) ((ch, x, y) :: cells) := by
  have hcell := draws_glyphSteps hs hcs t ch hx hy
  have hsize := length_frameLevels_cellEvents s.cfg.val (font s.cfg.val t.font) t.fg t.bg (ch, x, y)
  have heleven : ¬ cellSize (font s.cfg.val t.font) < 11 := Nat.not_lt.2 (Nat.le_add_right 11 _)
  rw [State.DrawsCells, cellDrawn_cfg] at hcells
  have hall := hcell.append (by rw [hsize, if_neg heleven]) hcells
  rw [hsize] at hall
  rw [State.DrawsCells, List.flatMap_cons]
  refine hall.congr fun k _ => ?_
  rcases Nat.lt_or_ge k (cellSize (font s.cfg.val t.font)) with hlt | hge
  · rw [if_pos hlt]
    split
    · rw [windowsSent_of_lt_eleven _ ‹_›]
      rfl
    · rw [windowsSent_of_lt (by omega) hlt]
      rfl
  · obtain ⟨j, rfl⟩ := Nat.exists_eq_add_of_le hge
    rw [if_neg (by omega), Nat.add_sub_cancel_left, windowsSent_add, List.take_succ_cons, lastWindow_cons,
      cellDrawn_window, cellDrawn_lineBuf]

theorem wrapped_fits {c : Config} {f : Font} (hw : f.width ≤ c.panelW) (x y : Nat) (a : Bool) :
    (wrapped c f x y a).1 + f.width ≤ c.panelW := by
  unfold wrapped
  split
  · rwa [Nat.zero_add]
  · exact Nat.le_of_not_lt ‹_›

/-- The loop of WRITE_STRING draws the layout of the characters it has left (43 R200). -/
theorem drawsCells_strDraw {s : State} (hs : s.Running) (hcs : s.cs = false) (t : Text) {str : List Byte} {i x y : Nat}
    {a : Bool} (hstr : s.memBytes (t.addr + i) str.length = str)
    (hin : t.addr + (i + str.length) ≤ s.cfg.val.hostMemSize) :
    s.DrawsCells t [.strDraw t (i + str.length) i x y a] (layout s.cfg.val (font s.cfg.val t.font) str x y a) := by
  induction str generalizing s i x y a with
  | nil => exact (expands_strDraw_end hs t hin x y a).drawsCells (drawsCells_nil hs t)
  | cons ch str ih =>
    have hlen : i + (ch :: str).length = i + 1 + str.length := by
      rw [List.length_cons]
      omega
    rw [hlen] at hin ⊢
    rw [List.length_cons, memBytes_succ, List.cons.injEq] at hstr
    obtain ⟨hch, hstr⟩ := hstr
    refine (expands_strDraw hs t (by omega) hin x y a).drawsCells ?_
    rw [hch, drawTurn, layout_cons]
    have hfits := fun hw => wrapped_fits (c := s.cfg.val) (f := font s.cfg.val t.font) hw x y a
    generalize wrapped s.cfg.val (font s.cfg.val t.font) x y a = p at hfits ⊢
    obtain ⟨x', y', a'⟩ := p
    dsimp only at hfits ⊢
    split
    · exact drawsCells_nil hs t
    · rename_i hon
      obtain ⟨hw, hh⟩ := not_or.1 hon
      split
      · exact ih hs hcs hstr hin
      · have hrest := ih (s := s.cellDrawn t (ch, x', y')) (i := i + 1) (x := x' + (font s.cfg.val t.font).width)
          (y := y') (a := false) (cellDrawn_running t _ hs) (by rwa [cellDrawn_cs]) (by rwa [cellDrawn_memBytes])
          (by rwa [cellDrawn_cfg])
        rw [cellDrawn_cfg] at hrest
        exact drawsCells_cons hs hcs t ch (hfits (Nat.le_of_not_lt hw)) (Nat.le_of_not_lt hh) hrest

/-- The operands of a WRITE_STRING as its loop reads them (43 R200). -/
def textOf (m : Mode) (fontIdx : Byte) (fg bg : Half) (addr : Word) : Text := ⟨m, fontIdx.toNat, fg, bg, addr.toNat⟩

/-- Settles O18: the string is found, and its cells are drawn one after another in one select/unselect pair. -/
theorem writeStringDrawsCells : Obligations.WriteStringDrawsCells := by
  intro m fontIdx x y fg bg addr s str hs hready hfont hlt hstr hne hnul f cells events size n
  have hplan : plan (.writeString m fontIdx x y fg bg addr) s =
      .ok [.strScan (textOf m fontIdx fg bg addr) x.toNat y.toNat 0] :=
    (whenReady_ready s _ hready).trans (if_pos hfont)
  have hscan := expands_strScan hs.running (textOf m fontIdx fg bg addr) x.toNat y.toNat (n := 0) hstr hne hnul hlt
  have hdraws := drawsCells_strDraw (s := s.setCS false) (i := 0) (x := x.toNat) (y := y.toNat) (a := false)
    hs.running rfl (textOf m fontIdx fg bg addr) hstr (by show addr.toNat + (0 + str.length) ≤ s.cfg.val.hostMemSize; omega)
  have hframes : (frameLevels events).length = n := length_frameLevels_cells s.cfg.val f fg bg cells
  obtain ⟨hw, -, hh⟩ := font_admitted s.cfg.property fontIdx.toNat
  refine ⟨fun hok => ?_, fun k hk hok herr => ?_⟩
  · rw [exec_drawn hs hplan hscan hdraws (hframes ▸ hok)]
    have hregs : (lastWindow f s.window (cells.take (windowsSent f (frameLevels events).length)), s.lineBuf) =
        (lastWindow f s.window cells, s.lineBuf) := by
      rw [hframes, show windowsSent f n = cells.length from windowsSent_mul f cells.length, List.take_length]
    refine (congrArg (fun p => Host.Outcome.next (s.drawn m events p)) hregs).trans ?_
    rw [State.drawn, State.played, getLastD_frameLevels_cells s.cfg.val f fg bg (Nat.mul_pos hw hh) cells,
      contains_frameLevels_cells, hframes]
    cases cells <;> rfl
  · rw [exec_drawFailed hs hplan hscan hdraws (hframes ▸ hk) hok herr]
    rfl

end Sys2Proof.Machine

/-! ## The fills and their fast variants, whatever the bus does (43 R196) -/

namespace Sys2Proof.Machine

/-- Where a step list leads has the same end. -/
theorem State.Reaches.finish_congr {s t : State} (h : s.Reaches t) : s.finish = t.finish :=
  (h.trans ⟨t.work, rfl⟩).finish_eq (runBlock_stuck_of_work_le (Nat.le_refl t.work))

theorem State.Runs.finish_congr {s t : State} {ops : List Micro} (h : s.Runs ops t) (rest : List Micro) :
    (s.withTodo (ops ++ rest)).finish = (t.withTodo rest).finish :=
  (h.reaches rest).finish_congr

/-- The two states differ in `LINEBUF`, `DONE`, the DMA engine and the step list only. -/
def State.FillTwin (t u : State) : Prop :=
  u = { t with lineBuf := u.lineBuf, done := u.done, dma := u.dma, todo := u.todo }

theorem State.FillTwin.refl (t : State) : t.FillTwin t := rfl

theorem State.FillTwin.symm {t u : State} (h : t.FillTwin u) : u.FillTwin t := by
  rw [State.FillTwin, h]

theorem State.FillTwin.trans {t u v : State} (h : t.FillTwin u) (h' : u.FillTwin v) : t.FillTwin v := by
  rw [State.FillTwin, h', h]

/-- A request ends alike in byte mode and in any mode (40 R149). -/
theorem finish_fillTwin_byte (i : Instr) {s : State} (hs : s.Latched) :
    (s.start (plan i s)).finish.FillTwin (s.start (plan (withMode .byte i) s)).finish := by
  obtain ⟨done, ops, hend, -⟩ := finish_byteTwin i hs
  rw [State.FillTwin, hend]
  rfl

/-- Two byte-mode step lists that send the same bytes: the second has `line` in `LINEBUF` at its start, writes a
scanline there where the first has no step, and sends from there what the first sends from its own bytes. -/
inductive SameFrames : List Byte → List Micro → List Micro → Prop where
  | nil (line : List Byte) : SameFrames line [] []
  | setCS {line : List Byte} {ops ops' : List Micro} (l : Bool) (h : SameFrames line ops ops') :
      SameFrames line (.setCS l :: ops) (.setCS l :: ops')
  | setDC {line : List Byte} {ops ops' : List Micro} (l : Bool) (h : SameFrames line ops ops') :
      SameFrames line (.setDC l :: ops) (.setDC l :: ops')
  | setWindow {line : List Byte} {ops ops' : List Micro} (w : Window) (h : SameFrames line ops ops') :
      SameFrames line (.setWindow w :: ops) (.setWindow w :: ops')
  | frame {line : List Byte} {ops ops' : List Micro} {src src' : Src} {k k' : Nat}
      (hbyte : ∀ s : State, (s.withLineBuf line).srcByte src' k' = s.srcByte src k) (h : SameFrames line ops ops') :
      SameFrames line (.tx src k :: ops) (.tx src' k' :: ops')
  | scanline {line : List Byte} {ops ops' : List Micro} (color : Half) {w : Nat} (hlen : 2 * w ≤ line.length)
      (h : SameFrames (pixelBytes w color ++ line.drop (2 * w)) ops ops') :
      SameFrames line ops (lineFill color w ++ ops')

/-! ### Their runs -/

/-- A step of each of two runs. -/
theorem State.FillTwin.of_runs {s s' t t' : State} {op op' : Micro} {ops ops' : List Micro} (h : s.Runs [op] t)
    (h' : s'.Runs [op'] t') (hrest : (t.withTodo ops).finish.FillTwin (t'.withTodo ops').finish) :
    (s.withTodo (op :: ops)).finish.FillTwin (s'.withTodo (op' :: ops')).finish := by
  rw [← h.finish_congr, ← h'.finish_congr] at hrest
  exact hrest

theorem State.Fails.finish_eq {s t : State} {ops : List Micro} (h : s.Fails ops t) (rest : List Micro) :
    (s.withTodo (ops ++ rest)).finish = t.raise .transport :=
  (h rest).finish_eq (canStep_raise t .transport)

/-- A frame that never completes is the end of the run (60 R271). -/
theorem finish_hung {s : State} (hs : s.Running) {src : Src} {k : Nat} (hin : src.InRange s.cfg.val k)
    (hnever : s.frame 0 = .never) (rest : List Micro) :
    (s.withTodo (.tx src k :: rest)).finish = { (s.withTodo rest).popFrame with hung := true } := by
  have hstep := (blockStep_withTodo_cons hs (op := .tx src k) hin rest).trans (tx_never (s.withTodo rest) _ id hnever)
  exact (State.Reaches.of_blockStep hstep).finish_eq (canStep_of_hung _ rfl)

/-- The frame that both runs offer next: it completes, ends both in fault entry, or hangs both. -/
theorem fillTwin_frame {s s' : State} (hs : s.Running) (hs' : s'.Running) (htwin : s' = s.withLineBuf s'.lineBuf)
    {src src' : Src} {k k' : Nat} (hin : src.InRange s.cfg.val k) (hin' : src'.InRange s'.cfg.val k')
    (hbyte : s'.srcByte src' k' = s.srcByte src k) {ops ops' : List Micro}
    (hrest : ((s.sent [s.srcByte src k]).withTodo ops).finish.FillTwin
      ((s'.sent [s.srcByte src k]).withTodo ops').finish) :
    (s.withTodo (.tx src k :: ops)).finish.FillTwin (s'.withTodo (.tx src' k' :: ops')).finish := by
  have hframe : s'.frame 0 = s.frame 0 := by rw [htwin]; rfl
  cases ho : s.frame 0 with
  | ok =>
    have hsent := runs_tx hs' hin' (framesOk_one (hframe.trans ho))
    rw [hbyte] at hsent
    exact .of_runs (runs_tx hs hin (framesOk_one ho)) hsent hrest
  | err =>
    have hend := (fails_tx hs hin ho).finish_eq ops
    have hend' := (fails_tx hs' hin' (hframe.trans ho)).finish_eq ops'
    rw [List.singleton_append] at hend hend'
    rw [hend, hend', htwin]
    rfl
  | never =>
    rw [finish_hung hs hin ho, finish_hung hs' hin' (hframe.trans ho), htwin]
    rfl

theorem le_panelW_of_lineFill {c : Config} {color : Half} {w : Nat} (h : StepsAdmissible c (lineFill color w)) :
    w ≤ c.panelW := by
  cases w with
  | zero => exact Nat.zero_le _
  | succ w =>
    have hlast : 2 * w + 1 < 2 * c.panelW := h (.lineByte (2 * w + 1) (lo color)) (by simp [lineFill_succ])
    omega

/-- Such step lists end alike, whatever the bus does. -/
theorem SameFrames.finish_fillTwin {line : List Byte} {ops ops' : List Micro} (h : SameFrames line ops ops') {s : State}
    (hs : s.Running) (hops : StepsAdmissible s.cfg.val ops) (hops' : StepsAdmissible s.cfg.val ops') :
    (s.withTodo ops).finish.FillTwin ((s.withLineBuf line).withTodo ops').finish := by
  induction h generalizing s with
  | nil line =>
    rw [(State.Runs.nil hs).finish_eq, (State.Runs.nil (s := s.withLineBuf line) hs).finish_eq]
    rfl
  | @setCS line _ _ l _ ih =>
    exact .of_runs (runs_setCS hs l) (runs_setCS (s := s.withLineBuf line) hs l)
      (ih (s := s.setCS l) hs (List.forall_mem_cons.1 hops).2 (List.forall_mem_cons.1 hops').2)
  | @setDC line _ _ l _ ih =>
    exact .of_runs (runs_setDC hs l) (runs_setDC (s := s.withLineBuf line) hs l)
      (ih (s := s.setDC l) hs (List.forall_mem_cons.1 hops).2 (List.forall_mem_cons.1 hops').2)
  | @setWindow line _ _ w _ ih =>
    obtain ⟨hw, hops⟩ := List.forall_mem_cons.1 hops
    exact .of_runs (runs_setWindow hs hw) (runs_setWindow (s := s.withLineBuf line) hs hw)
      (ih (s := { s with window := w }) hs hops (List.forall_mem_cons.1 hops').2)
  | @frame line _ _ src src' k k' hbyte _ ih =>
    obtain ⟨hin, hops⟩ := List.forall_mem_cons.1 hops
    obtain ⟨hin', hops'⟩ := List.forall_mem_cons.1 hops'
    exact fillTwin_frame (s' := s.withLineBuf line) hs hs rfl hin hin' (hbyte s)
      (ih (s := s.sent [s.srcByte src k]) hs hops hops')
  | @scanline line _ _ color w hlen _ ih =>
    obtain ⟨hfill, hops'⟩ := List.forall_mem_append.1 hops'
    rw [(runs_lineFill (s := s.withLineBuf line) hs color (le_panelW_of_lineFill hfill) hlen).finish_congr]
    exact ih hs hops hops'

/-! ### The two step lists of a fill -/

section Lists

variable {line : List Byte} {ops ops' : List Micro}

/-- Frames of the same bytes, from one source in each list. -/
theorem sameFrames_txs {src src' : Src} {g g' : Nat → Nat} {ks : List Nat}
    (hbyte : ∀ k ∈ ks, ∀ s : State, (s.withLineBuf line).srcByte src' (g' k) = s.srcByte src (g k))
    (h : SameFrames line ops ops') :
    SameFrames line ((ks.map fun k => .tx src (g k)) ++ ops) ((ks.map fun k => .tx src' (g' k)) ++ ops') := by
  induction ks with
  | nil => exact h
  | cons k ks ih =>
    obtain ⟨hk, hks⟩ := List.forall_mem_cons.1 hbyte
    exact .frame hk (ih hks)

theorem sameFrames_command (opc : Byte) (h : SameFrames line ops ops') :
    SameFrames line (command opc ++ ops) (command opc ++ ops') :=
  .setDC false (.frame (fun _ => rfl) h)

theorem sameFrames_setWindowSteps (c : Config) (w : Window) (h : SameFrames line ops ops') :
    SameFrames line (setWindowSteps c w .byte ++ ops) (setWindowSteps c w .byte ++ ops') := by
  have hargs (l : List Byte) {ops ops' : List Micro} (h : SameFrames line ops ops') :
      SameFrames line (.setDC true :: (List.range l.length).map (.tx (.bytes l)) ++ ops)
        (.setDC true :: (List.range l.length).map (.tx (.bytes l)) ++ ops') :=
    .setDC true (sameFrames_txs (fun _ _ _ => rfl) h)
  have hall := sameFrames_command c.opcCaset (hargs (coordArgs w.x0 w.x1 c.xStart)
    (sameFrames_command c.opcRaset (hargs (coordArgs w.y0 w.y1 c.yStart)
      (sameFrames_command c.opcRamwr (.setWindow w h)))))
  simpa [setWindowSteps, burstBytes, burst] using hall

theorem flatten_replicate_range {α : Type} (n h : Nat) (f : Nat → α) :
    (List.replicate h ((List.range n).map f)).flatten = (List.range (n * h)).map fun k => f (k % n) := by
  rw [map_range_mul n h fun col _ => f col]
  simp [List.flatMap, List.map_const']

theorem burst_byte (src : Src) (n : Nat) : burst src n .byte = (List.range n).map (.tx src) := by
  cases n <;> rfl

theorem pixelSteps_replicate_byte (n : Nat) (color : Half) :
    pixelSteps (List.replicate n color) .byte = (List.range (2 * n)).map fun k => .tx (.bytes (px color)) (k % 2) := by
  rw [← flatten_replicate_range, ← burst_byte]
  simp [pixelSteps, List.flatMap, burstBytes, px, wireHalf]

theorem lineBursts_byte (w h : Nat) :
    (List.replicate h (burst .lineBuf (2 * w) .byte)).flatten =
      (List.range (2 * (w * h))).map fun k => .tx .lineBuf (k % (2 * w)) := by
  rw [burst_byte, flatten_replicate_range, Nat.mul_assoc]

theorem getD_pixelBytes_append {n k : Nat} (hk : k < 2 * n) (color : Half) (rest : List Byte) :
    (pixelBytes n color ++ rest).getD k 0 = (px color).getD (k % 2) 0 := by
  have hbytes : pixelBytes n color = (List.range (2 * n)).map fun k => (px color).getD (k % 2) 0 := by
    rw [← flatten_replicate_range 2 n fun k => (px color).getD k 0]
    rfl
  rw [hbytes, List.getD_append _ _ _ _ (by simpa using hk)]
  simp [hk]

/-- The pixels of `w` by `h`, from the colour and from the scanline. -/
theorem sameFrames_pixels {w : Nat} (hw : 1 ≤ w) (h : Nat) (color : Half) (rest : List Byte)
    (hops : SameFrames (pixelBytes w color ++ rest) ops ops') :
    SameFrames (pixelBytes w color ++ rest) (pixelSteps (List.replicate (h * w) color) .byte ++ ops)
      ((List.replicate h (burst .lineBuf (2 * w) .byte)).flatten ++ ops') := by
  rw [pixelSteps_replicate_byte, lineBursts_byte, Nat.mul_comm h w]
  refine sameFrames_txs (fun k _ s => ?_) hops
  have hcol : k % (2 * w) < 2 * w := Nat.mod_lt k (by omega)
  have hbyte := getD_pixelBytes_append hcol color rest
  rwa [Nat.mod_mul_right_mod] at hbyte

theorem sameFrames_fillSteps {c : Config} (hlen : line.length = 2 * c.panelW) (x y w h : Nat) (color : Half) :
    SameFrames line (fillSteps c .byte x y w h color) (fillFastSteps c .byte x y w h color) := by
  unfold fillSteps fillFastSteps
  cases hclip : clip c x y w h with
  | none => exact .nil line
  | some wh =>
    obtain ⟨w', h'⟩ := wh
    obtain ⟨hw, -, hx, -⟩ := clip_some hclip
    have hpixels := sameFrames_pixels hw h' color (line.drop (2 * w')) (.setCS true (.nil _))
    have hfill := sameFrames_setWindowSteps c (rectWindow x y w' h') (.scanline color (by omega) (.setDC true hpixels))
    simpa [paintSteps, bracketed] using hfill.setCS false

end Lists

/-- A fill and its fast variant, whatever their mode and the bus. -/
theorem finish_fills_fillTwin {s : State} (hs : s.Latched) (hlen : s.lineBuf.length = 2 * s.cfg.val.panelW)
    {i j : Instr} {x y w h : Nat} {color : Half}
    (hi : plan (withMode .byte i) s = s.whenReady (.ok (fillSteps s.cfg.val .byte x y w h color)))
    (hj : plan (withMode .byte j) s = s.whenReady (.ok (fillFastSteps s.cfg.val .byte x y w h color))) :
    (s.start (plan i s)).finish.FillTwin (s.start (plan j s)).finish := by
  refine (finish_fillTwin_byte i hs).trans (.trans ?_ (finish_fillTwin_byte j hs).symm)
  rw [hi, hj]
  by_cases hready : s.pstate = .ready
  · rw [whenReady_ready _ _ hready, whenReady_ready _ _ hready]
    exact (sameFrames_fillSteps hlen x y w h color).finish_fillTwin hs.running
      (fillSteps_admissible s.cfg.property .byte x y w h color)
      (fillFastSteps_admissible s.cfg.property .byte x y w h color)
  · rw [whenReady_notReady _ _ hready, whenReady_notReady _ _ hready]
    exact .refl _

/-- Settles O55: in byte mode the two step lists offer the same frames, and the mode does not matter. -/
theorem fillVariantsEquivalent : Obligations.FillVariantsEquivalent := by
  intro m x y w h color s hs hlen
  have htrace {t u : State} (htwin : t.FillTwin u) : t.trace = u.trace := by rw [htwin]
  have hrect := finish_fills_fillTwin hs hlen (i := .fillRect m x y w h color) (j := .fillRectFast m x y w h color)
    rfl rfl
  have hscreen := finish_fills_fillTwin hs hlen (i := .fillScreen m color) (j := .fillScreenFast m color) rfl rfl
  exact ⟨⟨_, _, exec_eq_request s _, exec_eq_request s _, htrace hrect, hrect⟩,
    ⟨_, _, exec_eq_request s _, exec_eq_request s _, htrace hscreen, hscreen⟩⟩

end Sys2Proof.Machine

/-! ## The panel mode requests INVERT and SET_GAMMA (44 R230, R231) -/

namespace Sys2Proof

/-- A descriptor with a bit of `IMM8` that its request holds to 0 is refused for its reserved bits (30 R104, R111). -/
theorem decode_row_eq_reservedBits {r : OpRow} (hr : r ∈ opMap) {d : Desc} (hop : r.op = d.op)
    (himm : d.imm8 &&& immMask r.op ≠ 0) : decode d = .error (.reservedBits d.op) := by
  have hfind : opMap.find? (fun q => q.op == d.op) = some r := hop ▸ find_row hr
  obtain ⟨hmask, hpat⟩ := opMap_words r hr
  have hmismatch : d.w0 &&& r.mask ≠ r.pat := by
    rw [hmask, hpat, Ne, d.and_rowMask_iff]
    exact fun ⟨_, _, hbits⟩ => himm hbits
  rw [decode, hfind]
  exact if_pos (bne_iff_ne.2 hmismatch)

end Sys2Proof

namespace Sys2Proof.Machine

/-! ### Requests that need a ready panel and are one select/unselect pair -/

theorem exec_notReady {s : State} {i : Instr} {p : Plan} (hplan : plan i s = s.whenReady p) (h : s.pstate ≠ .ready) :
    exec i s = .next (s.raise .notReady) := by
  rw [exec_eq_request, hplan, whenReady_notReady s p h, request_error]

section Bracketed

variable {s : State} {i : Instr} {m : Mode} {ops : List Micro} {es : List Event} (hs : s.Latched)
  (hplan : plan i s = s.whenReady (.ok (bracketed ops))) (hready : s.pstate = .ready)
  (h : (s.setCS false).Plays m ops es)
include hs hplan hready h

theorem exec_bracketed_ok (hok : s.FramesOk (frameLevels es).length) :
    exec i s = .next (s.drawn m es (s.window, s.lineBuf)) :=
  exec_drawn hs (hplan.trans (whenReady_ready s _ hready)) (expands_refl s _) h.draws hok

theorem exec_bracketed_err {k : Nat} (hk : k < (frameLevels es).length) (hok : s.FramesOk k) (herr : s.frame k = .err) :
    exec i s = .next (s.failed m es k) :=
  exec_drawFailed hs (hplan.trans (whenReady_ready s _ hready)) (expands_refl s _) h.draws hk hok herr

end Bracketed

/-! ### INVERT -/

theorem imm8Bits_bit (on : Bool) : imm8Bits (0#7 ++ BitVec.ofBool on) = if on then 0x00010000 else 0 := by
  cases on <;> rfl

/-- INVERT holds the bits of `IMM8` above its operand to 0 (30 R104). -/
theorem and_immMask_invert_ne_zero : ∀ b : Byte, 1 < b.toNat → b &&& immMask 0x17 ≠ 0 := by decide

theorem decode_invert_reserved (m : Mode) {b : Byte} (hb : 1 < b.toNat) :
    decode ⟨0x00000017 ||| modeBit m ||| imm8Bits b, 0, 0, 0⟩ = .error (.reservedBits 0x17) := by
  have hw0 : 0x00000017 ||| modeBit m ||| imm8Bits b = w0Of 0x17 m b := (w0Of_eq_or 0x17 m b).symm
  have hop : Desc.op ⟨w0Of 0x17 m b, 0, 0, 0⟩ = 0x17 := w0Of_op 0x17 m b
  obtain ⟨r, hr, hrow, -⟩ := encode_row (.invert m true)
  have hrow' : r.op = 0x17 := hrow
  have himm : Desc.imm8 ⟨w0Of 0x17 m b, 0, 0, 0⟩ &&& immMask r.op ≠ 0 := by
    rw [imm8_w0Of, hrow']
    exact and_immMask_invert_ne_zero b hb
  rw [hw0, decode_row_eq_reservedBits hr (hrow'.trans hop.symm) himm, hop]

/-- Settles O20: the command byte between the select and the unselect, in a ready panel. -/
theorem invertSendsCommand : Obligations.InvertSendsCommand := by
  intro m on
  refine ⟨by simpa [encode, w0Of_eq_or, imm8Bits_bit] using decodeOfEncode (.invert m on),
    fun b hb => decode_invert_reserved m hb, fun s hs => ?_⟩
  have hplan : plan (.invert m on) s =
      s.whenReady (.ok (bracketed (command (if on then s.cfg.val.opcInvon else s.cfg.val.opcInvoff)))) := rfl
  have hplays := plays_command (s := s.setCS false) hs.running m
    (if on then s.cfg.val.opcInvon else s.cfg.val.opcInvoff)
  refine ⟨exec_notReady hplan, fun hready hok => ?_, fun hready herr => ?_⟩
  · rw [exec_bracketed_ok hs hplan hready hplays (framesOk_one hok)]
    simp [State.drawn, State.withDraw, State.played]
  · rw [exec_bracketed_err hs hplan hready hplays Nat.one_pos nofun herr]
    simp [State.failed, beforeFrame]

/-! ### SET_GAMMA -/

/-- Settles O21: the command byte and a data burst of the curve byte, in a ready panel. -/
theorem setGammaSendsCurve : Obligations.SetGammaSendsCurve := by
  intro m curve
  refine ⟨by simpa [encode, w0Of_eq_or] using decodeOfEncode (.setGamma m curve), fun s hs => ?_⟩
  have hplan : plan (.setGamma m curve) s = s.whenReady
      (.ok (bracketed (command s.cfg.val.opcGamset ++ (.setDC true :: burstBytes [curve] m)))) := rfl
  have hplays := plays_commandBurst (s := s.setCS false) hs.running m s.cfg.val.opcGamset (List.cons_ne_nil curve [])
  refine ⟨exec_notReady hplan, fun hready hok => ?_, fun hready herr => ?_, fun hready hok herr => ?_⟩
  · rw [exec_bracketed_ok hs hplan hready hplays hok]
    simp [State.drawn, State.withDraw, State.played, dataEvents]
  · rw [exec_bracketed_err hs hplan hready hplays (k := 0) Nat.two_pos nofun herr]
    cases m <;> simp [State.failed, beforeFrame]
  · rw [exec_bracketed_err hs hplan hready hplays (k := 1) Nat.one_lt_two (framesOk_one hok) herr]
    cases m <;> rfl

end Sys2Proof.Machine

/-! ## Colour packing (45 R240, R241) -/

namespace Sys2Proof

/-- A descriptor whose `W0` is legal is refused for a nonzero field of `W1`, `W2` or `W3` that its format holds to 0
(30 R109, R111). -/
theorem decode_row_eq_nonzeroField {r : OpRow} (hr : r ∈ opMap) {d : Desc} (hop : r.op = d.op)
    (hreserved : d.reservedZero = true) (himm : d.imm8 &&& immMask r.op = 0) (hzero : r.fmt.zeroFieldsOK d = false) :
    decode d = .error (.nonzeroField d.op) := by
  have hfind : opMap.find? (fun q => q.op == d.op) = some r := hop ▸ find_row hr
  obtain ⟨hmask, hpat⟩ := opMap_words r hr
  have hw0 : d.w0 &&& r.mask = r.pat := by
    rw [hmask, hpat, d.and_rowMask_iff]
    exact ⟨hop.symm, hreserved, himm⟩
  rw [decode, hfind]
  simp [hw0, hzero]

/-- Format K holds the high byte of `W1`, and `W2` and `W3`, to 0 (30 R105). -/
theorem zeroFieldsOK_K_eq_false_iff (d : Desc) :
    Format.K.zeroFieldsOK d = false ↔ byteAt d.w1 3 ≠ 0 ∨ d.w2 ≠ 0 ∨ d.w3 ≠ 0 := by
  simp only [Format.zeroFieldsOK, Bool.and_eq_false_iff, beq_eq_false_iff_ne, or_assoc]

end Sys2Proof

namespace Sys2Proof.Machine

/-! ### COLOR565 -/

theorem decode_color565_nonzeroField (m : Mode) {w1 w2 w3 : Word}
    (h : w1.extractLsb' 24 8 ≠ 0 ∨ w2 ≠ 0 ∨ w3 ≠ 0) :
    decode ⟨0x00000020 ||| modeBit m, w1, w2, w3⟩ = .error (.nonzeroField 0x20) := by
  have hw0 : 0x00000020 ||| modeBit m = w0Of 0x20 m 0 := by cases m <;> rfl
  obtain ⟨r, hr, hrow, hfmt⟩ : ∃ r ∈ opMap, r.op = 0x20 ∧ r.fmt = .K := by simp [opMap]
  obtain ⟨hop, -, hreserved⟩ := Laws.Fields.of_w0 (d := ⟨w0Of 0x20 m 0, w1, w2, w3⟩) rfl
  have himm : Desc.imm8 ⟨w0Of 0x20 m 0, w1, w2, w3⟩ &&& immMask r.op = 0 := by
    rw [imm8_w0Of]
    exact BitVec.zero_and
  have hzero : r.fmt.zeroFieldsOK ⟨w0Of 0x20 m 0, w1, w2, w3⟩ = false := by
    rw [hfmt, zeroFieldsOK_K_eq_false_iff]
    exact h
  rw [hw0, decode_row_eq_nonzeroField hr (hrow.trans hop.symm) hreserved himm hzero, hop]

/-- The step that writes `RESULT`, whose high half stays 0 (10 R42). -/
theorem runs_setResult {s : State} (hs : s.Running) {v : Word} (hv : v.extractLsb' 16 16 = 0) :
    s.Runs [.setResult v] { s with result := v } :=
  .of_seqStep hs hv hs fun _ => rfl

theorem exec_color565 {s : State} (hs : s.Latched) (m : Mode) (r g b : Byte) :
    exec (.color565 m r g b) s = .next { s with result := (pack565 r g b).setWidth 32, seq := .idle } := by
  obtain ⟨-, htodo, -⟩ := id hs
  have hhigh : ((pack565 r g b).setWidth 32).extractLsb' 16 16 = 0 :=
    planColor565_admissible s m r g b _ rfl _ (List.mem_singleton_self _)
  exact (exec_of_runs rfl (runs_setResult hs.running hhigh)).trans (congrArg _ (complete_eq htodo))

/-- Settles O22: one step, which sets `RESULT`, in any panel state; the decoder checks the zero fields of format K. -/
theorem color565PacksResult : Obligations.Color565PacksResult := by
  refine ⟨fun m r g b => ⟨?_, fun s hs => exec_color565 hs m r g b⟩,
    fun m w1 w2 w3 h => decode_color565_nonzeroField m h, by decide⟩
  simpa [encode, w0Of_eq_or] using decodeOfEncode (.color565 m r g b)

/-! ### The packing rule -/

/-- The packed fields, shifted to their places and joined. -/
theorem pack565_eq_shifted (r g b : Byte) :
    pack565 r g b = ((r.extractLsb' 3 5).setWidth 16 <<< 11) ||| ((g.extractLsb' 2 6).setWidth 16 <<< 5)
      ||| (b.extractLsb' 3 5).setWidth 16 := by
  refine BitVec.eq_of_getLsbD_eq fun i hi => ?_
  simp only [pack565, BitVec.getLsbD_append, BitVec.getLsbD_or, BitVec.getLsbD_shiftLeft, BitVec.getLsbD_setWidth,
    BitVec.getLsbD_extractLsb']
  grind

/-! The two formulas of 45 R241 agree field by field: a byte's low bits masked away, or its top bits moved to their place. -/

theorem red_masked : ∀ r : Byte, (r &&& 0xF8).setWidth 16 <<< 8 = (r.extractLsb' 3 5).setWidth 16 <<< 11 := by decide
theorem green_masked : ∀ g : Byte, (g &&& 0xFC).setWidth 16 <<< 3 = (g.extractLsb' 2 6).setWidth 16 <<< 5 := by decide
theorem blue_shifted : ∀ b : Byte, (b >>> 3).setWidth 16 = (b.extractLsb' 3 5).setWidth 16 := by decide

theorem extract_pack565_red (r g b : Byte) : (pack565 r g b).extractLsb' 11 5 = r.extractLsb' 3 5 := by
  rw [pack565, BitVec.append_assoc]
  exact BitVec.extractLsb'_append_eq_left

theorem extract_pack565_green (r g b : Byte) : (pack565 r g b).extractLsb' 5 6 = g.extractLsb' 2 6 := by
  rw [pack565, BitVec.extractLsb'_append_eq_of_le (Nat.le_refl 5)]
  exact BitVec.extractLsb'_append_eq_right

theorem extract_pack565_blue (r g b : Byte) : (pack565 r g b).extractLsb' 0 5 = b.extractLsb' 3 5 :=
  BitVec.extractLsb'_append_eq_right

/-- Settles O23: the masks and shifts move the three fields to the places where the packed word has them. -/
theorem pack565Bits : Obligations.Pack565Bits := by
  intro r g b
  refine ⟨?_, pack565_eq_shifted r g b, extract_pack565_red r g b, extract_pack565_green r g b,
    extract_pack565_blue r g b⟩
  rw [red_masked, green_masked, blue_shifted]
  exact pack565_eq_shifted r g b

end Sys2Proof.Machine

/-! ## Faults: which checks raise them, and what a frame that ends in an error does (60 R250 to R259) -/

namespace Sys2Proof.Machine

/-! ### The faults of a request's own checks (60 R252 to R257) -/

theorem whenReady_eq_ok {s : State} {p : Plan} {ops : List Micro} (h : s.whenReady p = .ok ops) : p = .ok ops := by
  by_cases hready : s.pstate = .ready
  · rwa [whenReady_ready s p hready] at h
  · rw [whenReady_notReady s p hready] at h
    cases h

theorem whenReady_eq_error {s : State} {p : Plan} {c : FaultCause} (h : s.whenReady p = .error c) :
    (c = .notReady ∧ s.pstate ≠ .ready) ∨ p = .error c := by
  by_cases hready : s.pstate = .ready
  · rw [whenReady_ready s p hready] at h
    exact .inr h
  · rw [whenReady_notReady s p hready] at h
    cases h
    exact .inl ⟨rfl, hready⟩

/-- The faults of `i`'s own checks in `s`: `NOT_READY` for `PANEL_OPS`, `BAD_OPERAND` for two requests, and `BUFFER` for two
(60 R253, R254, R257); WRITE_STRING's `BUFFER` is the loop of `StrLen`. -/
inductive CheckFault (i : Instr) (s : State) : FaultCause → Prop where
  | notReady (hpanel : panelOp i = true) (hready : s.pstate ≠ .ready) : CheckFault i s .notReady
  | window {m : Mode} {x0 y0 x1 y1 : Half} (hi : i = .setwin m x0 y0 x1 y1) : CheckFault i s .badOperand
  | font {m : Mode} {f : Byte} {x y fg bg : Half} {addr : Word} (hi : i = .writeString m f x y fg bg addr) :
      CheckFault i s .badOperand
  | data {m : Mode} {addr len : Word} (hi : i = .wrdata m addr len) : CheckFault i s .buffer
  | image {m : Mode} {x y w h : Half} {addr : Word} (hi : i = .drawImage m x y w h addr) : CheckFault i s .buffer

theorem checkFault_of_whenReady {i : Instr} {s : State} {p : Plan} {c : FaultCause} (hpanel : panelOp i = true)
    (hp : p = .error c → CheckFault i s c) (h : s.whenReady p = .error c) : CheckFault i s c := by
  rcases whenReady_eq_error h with ⟨rfl, hready⟩ | h
  · exact .notReady hpanel hready
  · exact hp h

/-- A plan that refuses its request has one of these faults (60 R256). -/
theorem plan_error {i : Instr} {s : State} {c : FaultCause} (h : plan i s = .error c) : CheckFault i s c := by
  cases i with
  | select m | unselect m | wrcmd m opc | init m | color565 m r g b => cases h
  | wrdata m addr len =>
    simp only [plan, planWrdata] at h
    split at h <;> cases h
    exact .data rfl
  | setwin m x0 y0 x1 y1 =>
    refine checkFault_of_whenReady rfl (fun hp => ?_) h
    split at hp <;> cases hp
    exact .window rfl
  | writeString m f x y fg bg addr =>
    refine checkFault_of_whenReady rfl (fun hp => ?_) h
    split at hp <;> cases hp
    exact .font rfl
  | drawImage m x y w height addr =>
    refine checkFault_of_whenReady rfl (fun hp => ?_) h
    split at hp
    · cases hp
    · dsimp only at hp
      split at hp
      · cases hp
      · split at hp <;> cases hp
        exact .image rfl
  | drawPixel m x y color =>
    refine checkFault_of_whenReady rfl (fun hp => ?_) h
    split at hp <;> cases hp
  | fillRect m x y w height color | fillRectFast m x y w height color | fillScreen m color | fillScreenFast m color
  | invert m on | setGamma m curve => exact checkFault_of_whenReady (p := .ok _) rfl nofun h

theorem exec_error {i : Instr} {s : State} {c : FaultCause} (h : plan i s = .error c) : exec i s = .next (s.raise c) := by
  rw [exec_eq_request, h, request_error]

/-- Only `TRANSPORT` has the code 0x01 (60 R250). -/
theorem code_eq_transport_iff (c : FaultCause) : c.code = 0x01 ↔ c = .transport := by
  cases c <;> decide

theorem CheckFault.ne_transport {i : Instr} {s : State} {c : FaultCause} (h : CheckFault i s c) : c ≠ .transport := by
  cases h <;> nofun

/-- Settles O24: a plan that asks for a ready panel refuses any other, and no other check raises `NOT_READY`. -/
theorem notReadyFault : Obligations.NotReadyFault := by
  intro i s
  refine ⟨fun hpanel hready => ?_, fun h => ?_⟩
  · cases i with
    | select m | unselect m | wrcmd m opc | wrdata m addr len | init m | color565 m r g b => cases hpanel
    | _ => exact exec_notReady rfl hready
  · cases plan_error h with
    | notReady hpanel hready => exact ⟨hpanel, hready⟩

/-- Settles O25: the range checks of the two requests fail, and no other check raises `BAD_OPERAND`. -/
theorem badOperandFault : Obligations.BadOperandFault := by
  refine ⟨fun m x0 y0 x1 y1 s hready hout => ?_, fun m f x y fg bg addr s hready hfont => ?_, fun i s h => ?_⟩
  · have hwin : ¬ Window.inPanel ⟨x0, y0, x1, y1⟩ s.cfg.val = true := by
      simpa [Window.inPanel, and_assoc] using hout
    exact exec_error ((whenReady_ready s _ hready).trans (if_neg hwin))
  · exact exec_error ((whenReady_ready s _ hready).trans (if_neg (Nat.not_lt.2 hfont)))
  · cases plan_error h with
    | window hi => exact .inl ⟨_, _, _, _, _, hi⟩
    | font hi => exact .inr ⟨_, _, _, _, _, _, _, hi⟩

/-! ### Fault entry (60 R252, R255) -/

/-- Settles O27: `SetCS(1)`, then the record. -/
theorem faultEntryRecords : Obligations.FaultEntryRecords := by
  refine ⟨fun s c => ⟨none, false, ?_⟩, rfl, rfl, rfl, rfl, rfl⟩
  rw [State.raise, setCS_true_eq]
  rfl

/-- Settles O7: decoding is the first step of a latched request, in a turn of the block and with nobody due. -/
theorem illegalDescriptorFaults : Obligations.IllegalDescriptorFaults := by
  intro s e hs hdec
  obtain ⟨hexec, htodo, -, -, hhung⟩ := hs
  refine ⟨fun hsched => ?_, fun rest hsched => ?_⟩
  · simp [step_quiet s hsched, quietTurn, hexec, htodo, hhung, execLatched, State.fetch, hdec]
  · simp [step_block s rest hsched, blockTurn, hexec, htodo, hhung, State.begin, State.fetch, hdec]

/-- A halted block has no step, and the host's register writes do nothing or reset it (60 R259; 10 R33). -/
theorem hostTurn_halted {s t : State} (hhalted : s.seq = .halted) (h : hostTurn s = .next t) :
    ∃ mem seen host, t = { s with mem := mem, seen := seen, host := host } ∨
      t = State.resetBlock { s with mem := mem, seen := seen, host := host } := by
  have hidle : s.seq ≠ .idle := by simp [hhalted]
  rcases hostTurn_cases s h with rfl | ⟨host, seen, rfl⟩ | ⟨host, off, v, -, rfl⟩ | ⟨host, a, bs, -, rfl⟩
  · exact ⟨t.mem, t.seen, t.host, .inl rfl⟩
  · exact ⟨s.mem, seen, host, .inl rfl⟩
  · refine ⟨s.mem, s.seen, host, ?_⟩
    rcases writeReg_cases { s with host := host } off v with hw | ⟨hseq, -⟩ | ⟨hseq, -⟩ | hw
    · exact .inl hw
    · exact absurd hseq hidle
    · exact absurd hseq hidle
    · exact .inr hw
  · exact ⟨_, s.seen, host, .inl rfl⟩

/-- Settles O30: the block's turn does nothing, the host's is as above, and the platform's is a reset. -/
theorem haltedUntilReset : Obligations.HaltedUntilReset := by
  intro s t hhalted h
  cases hsched : s.sched with
  | nil =>
    rw [step_quiet s hsched, quietTurn, if_neg (by simp [hhalted])] at h
    obtain ⟨mem, seen, host, ht⟩ := hostTurn_halted hhalted h
    exact ⟨mem, seen, host, s.sched, ht⟩
  | cons who rest =>
    cases who with
    | block =>
      rw [step_block s rest hsched, blockTurn, if_neg (by simp [hhalted])] at h
      cases h
      exact ⟨s.mem, s.seen, s.host, rest, .inl rfl⟩
    | host =>
      rw [step_host s rest hsched] at h
      obtain ⟨mem, seen, host, ht⟩ := hostTurn_halted (s := { s with sched := rest }) hhalted h
      exact ⟨mem, seen, host, rest, ht⟩
    | hwReset =>
      rw [step_hwReset s rest hsched] at h
      cases h
      exact ⟨s.mem, s.seen, s.host, rest, .inr rfl⟩

/-! ### The delay timer and hung frames (60 R265, R271) -/

/-- Settles O32: the step of the agent that is next. -/
theorem delayHoldsUntilTimer : Obligations.DelayHoldsUntilTimer := by
  intro s hcan hd
  refine ⟨fun ms rest ht hl => ?_, fun ms ht => ?_⟩
  · simp [State.blockStep, hcan, hd, ht, hl, State.seqStep, State.emit]
  · simp [State.blockStep, hcan, hd, ht]

/-- Settles O33: a hung block has no step, a running one holds the write of `CTRL`, and a hardware reset asks for neither. -/
theorem hungFrameNeverEnds : Obligations.HungFrameNeverEnds := by
  intro s rest hexec hhung
  refine ⟨fun hsched => ?_, fun v more hsched hhost => ?_, fun hsched => ⟨step_hwReset s rest hsched, rfl⟩⟩
  · rw [step_block s rest hsched, blockTurn, if_neg (by simp [hhung])]
  · rw [step_hostWrite (off := 0x20) hsched (by decide) rfl hhost, if_pos ⟨hexec, rfl⟩]

/-! ### The step lists that scan a string (43 R204) -/

/-- The entry is the loop of `StrLen`, which alone raises a fault without a frame. -/
def Micro.isScan : Micro → Bool
  | .strScan _ _ _ _ => true
  | _ => false

/-- A string is still to be scanned. -/
def hasScan (ops : List Micro) : Bool := ops.any Micro.isScan

@[simp] theorem hasScan_nil : hasScan [] = false := rfl

@[simp] theorem hasScan_cons (op : Micro) (ops : List Micro) : hasScan (op :: ops) = (op.isScan || hasScan ops) :=
  List.any_cons

@[simp] theorem hasScan_append (ops ops' : List Micro) : hasScan (ops ++ ops') = (hasScan ops || hasScan ops') :=
  List.any_append

theorem hasScan_flatMap {α : Type} {l : List α} {f : α → List Micro} (h : ∀ a ∈ l, hasScan (f a) = false) :
    hasScan (l.flatMap f) = false := by
  rw [hasScan, List.any_flatMap, List.any_eq_false]
  exact fun a ha => Bool.not_eq_true _ ▸ h a ha

@[simp] theorem hasScan_burst (src : Src) (n : Nat) (m : Mode) : hasScan (burst src n m) = false := by
  unfold burst
  split
  · rfl
  · cases m with
    | byte => simp [hasScan, Micro.isScan]
    | burst => rfl

@[simp] theorem hasScan_burstBytes (l : List Byte) (m : Mode) : hasScan (burstBytes l m) = false := hasScan_burst ..

@[simp] theorem hasScan_command (opc : Byte) : hasScan (command opc) = false := rfl

@[simp] theorem hasScan_setWindowSteps (c : Config) (w : Window) (m : Mode) : hasScan (setWindowSteps c w m) = false := by
  simp [setWindowSteps, Micro.isScan]

@[simp] theorem hasScan_pixelSteps (ps : List Half) (m : Mode) : hasScan (pixelSteps ps m) = false :=
  hasScan_flatMap fun _ _ => hasScan_burstBytes _ m

@[simp] theorem hasScan_glyphSteps (c : Config) (t : Text) (ch : Byte) (x y : Nat) :
    hasScan (glyphSteps c t ch x y) = false := by
  simp [glyphSteps, Micro.isScan]

@[simp] theorem hasScan_bracketed (ops : List Micro) : hasScan (bracketed ops) = hasScan ops := by
  simp [bracketed, Micro.isScan]

@[simp] theorem hasScan_lineFill (color : Half) (w : Nat) : hasScan (lineFill color w) = false :=
  hasScan_flatMap fun _ _ => rfl

@[simp] theorem hasScan_paintSteps (c : Config) (m : Mode) (x y w h : Nat) (before pixels : List Micro) :
    hasScan (paintSteps c m x y w h before pixels) = (hasScan before || hasScan pixels) := by
  simp [paintSteps, Micro.isScan]

@[simp] theorem hasScan_fillSteps (c : Config) (m : Mode) (x y w h : Nat) (color : Half) :
    hasScan (fillSteps c m x y w h color) = false := by
  unfold fillSteps
  split <;> simp

@[simp] theorem hasScan_fillFastSteps (c : Config) (m : Mode) (x y w h : Nat) (color : Half) :
    hasScan (fillFastSteps c m x y w h color) = false := by
  unfold fillFastSteps
  split
  · rfl
  · rename_i w' h' _
    have hlines : hasScan (List.replicate h' (burst .lineBuf (2 * w') m)).flatten = false := by
      rw [← List.flatMap_id]
      exact hasScan_flatMap fun ops hops => List.eq_of_mem_replicate hops ▸ hasScan_burst ..
    simp [hlines]

@[simp] theorem hasScan_entrySteps (m : Mode) (e : ScriptEntry) : hasScan (entrySteps m e) = false := by
  unfold entrySteps
  cases e.delay <;> cases e.args.isEmpty <;> simp [Micro.isScan]

/-- Of the requests WRITE_STRING alone scans, and it does nothing else first. -/
theorem plan_hasScan {i : Instr} {s : State} {ops : List Micro} (h : plan i s = .ok ops) :
    hasScan ops = false ∨ ∃ t x y, ops = [.strScan t x y 0] := by
  cases i with
  | select m | unselect m | wrcmd m opc | color565 m r g b =>
    cases h
    exact .inl rfl
  | wrdata m addr len =>
    simp only [plan, planWrdata] at h
    split at h <;> cases h
    exact .inl (by simp [Micro.isScan])
  | setwin m x0 y0 x1 y1 =>
    have hp := whenReady_eq_ok h
    split at hp <;> cases hp
    exact .inl (hasScan_setWindowSteps ..)
  | init m =>
    cases h
    have hscripts : hasScan (s.cfg.val.scripts.flatMap (scriptSteps m)) = false :=
      hasScan_flatMap fun _ _ => hasScan_flatMap fun e _ => hasScan_entrySteps m e
    exact .inl (by simp [resetPulse, Micro.isScan, hscripts])
  | drawPixel m x y color =>
    have hp := whenReady_eq_ok h
    split at hp <;> cases hp
    · exact .inl rfl
    · exact .inl (by simp)
  | drawImage m x y w height addr =>
    have hp := whenReady_eq_ok h
    split at hp
    · cases hp
      exact .inl rfl
    · dsimp only at hp
      split at hp
      · cases hp
        exact .inl rfl
      · split at hp <;> cases hp
        refine .inl ?_
        rw [hasScan_paintSteps]
        split <;> simp
  | writeString m f x y fg bg addr =>
    have hp := whenReady_eq_ok h
    split at hp <;> cases hp
    exact .inr ⟨_, _, _, rfl⟩
  | fillRect m x y w height color | fillRectFast m x y w height color | fillScreen m color | fillScreenFast m color
  | invert m on | setGamma m curve =>
    cases whenReady_eq_ok (p := .ok _) h
    exact .inl (by simp [Micro.isScan])

/-- A string is still to be scanned in `s`. -/
def State.scans (s : State) : Bool := hasScan (s.todo.getD [])

/-- Only a scan becomes a scan. -/
theorem Micro.Becomes.isScan {c : Config} {op : Micro} {ops : List Micro} {d : Dma} {tm : Timer}
    (h : op.Becomes c ops d tm) (hscan : hasScan ops = true) : op.isScan = true := by
  cases h with
  | done | burst | delay => cases hscan
  | scanOn | scanned => rfl
  | space => exact hscan
  | cell ch => simp [Micro.isScan] at hscan

theorem State.Moves.scans {s t : State} (h : s.Moves t) (hscan : t.scans = true) : s.scans = true := by
  unfold State.scans at hscan ⊢
  cases h with
  | ended _ htodo _ => simp [htodo] at hscan
  | dma _ htodo _ _ => rwa [htodo] at hscan
  | timer _ _ htodo _ _ => rwa [htodo] at hscan
  | entry _ _ hl hops htodo =>
    rw [htodo, Option.getD_some, hasScan_append, Bool.or_eq_true] at hscan
    rw [hl, Option.getD_some, hasScan_cons, Bool.or_eq_true]
    exact hscan.imp_left hops.isScan

/-! ### The frames of a run (40 R141; 60 R251, R271) -/

/-- From `s` the block has come to `t` and has no fault; it has offered `n` frames, and each has completed. -/
structure State.Sends (s : State) (n : Nat) (t : State) : Prop where
  ok      : s.FramesOk n
  next    : ∀ k, t.frame k = s.frame (n + k)
  draws   : t.draws = s.draws + n
  code    : t.faultCode = s.faultCode
  running : t.seq ≠ .halted

theorem sends_zero {s t : State} (hbus : t.bus = s.bus) (hdraws : t.draws = s.draws) (hcode : t.faultCode = s.faultCode)
    (hrun : t.seq ≠ .halted) : s.Sends 0 t :=
  ⟨nofun, fun k => by simp [State.frame, hbus, hdraws], hdraws, hcode, hrun⟩

theorem sends_one {s : State} (hok : s.frame 0 = .ok) (hrun : s.seq ≠ .halted) (e : Event) :
    s.Sends 1 (s.popFrame.emit e) :=
  ⟨framesOk_one hok, fun k => (frame_popFrame s k).trans (by rw [Nat.add_comm]), rfl, rfl, hrun⟩

theorem State.FramesOk.add {s t : State} {n m : Nat} (h : s.Sends n t) (hok : t.FramesOk m) : s.FramesOk (n + m) := by
  intro k hk
  rcases Nat.lt_or_ge k n with hlt | hge
  · exact h.ok k hlt
  · obtain ⟨j, rfl⟩ := Nat.exists_eq_add_of_le hge
    rw [← h.next]
    exact hok j (by omega)

theorem State.Sends.trans {s t u : State} {n m : Nat} (h : s.Sends n t) (h' : t.Sends m u) : s.Sends (n + m) u :=
  ⟨.add h h'.ok, fun k => by rw [h'.next, h.next, Nat.add_assoc], by rw [h'.draws, h.draws, Nat.add_assoc],
    h'.code.trans h.code, h'.running⟩

/-- What became of the frames of a run of the block from `s` to `t`, `n` of which completed: the run goes on; `StrLen` has
refused its string; the next frame ended in an error; or it never completes. -/
inductive State.Course (s t : State) : Prop where
  | going {n : Nat} (h : s.Sends n t)
  | refused {n : Nat} (hok : s.FramesOk n) (hdraws : t.draws = s.draws + n) (hseq : t.seq = .halted)
      (hcode : t.faultCode = FaultCause.buffer.code) (hscan : s.scans = true)
  | failed {n : Nat} (hok : s.FramesOk n) (herr : s.frame n = .err) (hdraws : t.draws = s.draws + n + 1)
      (hseq : t.seq = .halted) (hcode : t.faultCode = FaultCause.transport.code) (hcs : t.cs = true)
  | hung {n : Nat} (hok : s.FramesOk n) (hnever : s.frame n = .never) (hdraws : t.draws = s.draws + n + 1)
      (hseq : t.seq = .exec) (hhung : t.hung = true) (hcode : t.faultCode = s.faultCode)

/-- A run after frames that completed; it may scan a string only if the whole run may. -/
theorem State.Sends.course {s t u : State} {n : Nat} (h : s.Sends n t) (hscan : t.scans = true → s.scans = true)
    (h' : t.Course u) : s.Course u := by
  have hdraws (m : Nat) : t.draws + m = s.draws + (n + m) := by rw [h.draws, Nat.add_assoc]
  cases h' with
  | going h' => exact .going (h.trans h')
  | refused hok hd hseq hcode hs => exact .refused (.add h hok) (hd.trans (hdraws _)) hseq hcode (hscan hs)
  | failed hok herr hd hseq hcode hcs =>
    rw [hdraws] at hd
    exact .failed (.add h hok) (h.next _ ▸ herr) hd hseq hcode hcs
  | hung hok hnever hd hseq hhung hcode =>
    rw [hdraws] at hd
    exact .hung (.add h hok) (h.next _ ▸ hnever) hd hseq hhung (hcode.trans h.code)

/-- One frame (40 R141), and what its agent does next, which offers none. -/
theorem tx_course {s : State} (hexec : s.seq = .exec) (b : Byte) {f : State → State}
    (hf : ∀ u : State, u.seq ≠ .halted → u.Sends 0 (f u)) : s.Course (s.tx b f) := by
  have hrun : s.seq ≠ .halted := by simp [hexec]
  rcases tx_cases s b f with ⟨hok, h⟩ | ⟨herr, h⟩ | ⟨hnever, h⟩
  · rw [h]
    exact .going ((sends_one hok hrun _).trans (hf _ hrun))
  · rw [h]
    exact .failed (n := 0) nofun herr rfl rfl rfl rfl
  · rw [h]
    exact .hung (n := 0) nofun hnever rfl hexec rfl rfl

theorem dmaStep_course {s : State} (hexec : s.seq = .exec) (src : Src) (n i : Nat) : s.Course (s.dmaStep src n i) := by
  unfold State.dmaStep
  split
  · exact tx_course hexec _ fun u hu => sends_zero rfl rfl rfl hu
  · exact .going (sends_zero rfl rfl rfl (by simp [hexec]))

theorem seqStep_course {s : State} (hexec : s.seq = .exec) {op : Micro} {rest : List Micro}
    (hl : s.todo = some (op :: rest)) : s.Course (s.seqStep op rest) := by
  have hrun : s.seq ≠ .halted := by simp [hexec]
  cases op with
  | tx src k =>
    have htaken : s.Sends 0 (s.withTodo rest) := sends_zero rfl rfl rfl hrun
    have hframe : (s.withTodo rest).Course ((s.withTodo rest).tx (s.srcByte src k) id) :=
      tx_course (s := s.withTodo rest) hexec _ (f := id) fun u hu => sends_zero rfl rfl rfl hu
    exact htaken.course (fun hscan => by simpa [State.scans, hl, Micro.isScan] using hscan) hframe
  | strScan t x y n =>
    rcases strScanStep_cases (s.withTodo rest) rest t x y n with h | ⟨ops, -, h⟩
    · rw [show s.seqStep (.strScan t x y n) rest = _ from h]
      exact .refused (n := 0) nofun rfl rfl rfl (by simp [State.scans, hl, Micro.isScan])
    · rw [show s.seqStep (.strScan t x y n) rest = _ from h]
      exact .going (sends_zero rfl rfl rfl hrun)
  | strDraw t len i x y a =>
    obtain ⟨ops, -, h⟩ := strDrawStep_cases (s.withTodo rest) rest t len i x y a
    rw [show s.seqStep (.strDraw t len i x y a) rest = _ from h]
    exact .going (sends_zero rfl rfl rfl hrun)
  | _ => exact .going (sends_zero rfl rfl rfl hrun)

theorem blockStep_course {s : State} (hcan : s.canStep = true) : s.Course s.blockStep := by
  obtain ⟨hexec, -, -⟩ := canStep_running hcan
  rcases blockStep_cases s hcan with ⟨src, n, i, -, hs⟩ | ⟨-, -, hs⟩ | ⟨-, -, -, hs⟩ | ⟨-, -, op, rest, hl, hs⟩
  · exact hs ▸ dmaStep_course hexec src n i
  · exact hs ▸ .going (sends_zero rfl rfl rfl (by simp [hexec]))
  · exact hs ▸ .going (sends_zero rfl rfl rfl nofun)
  · exact hs ▸ seqStep_course hexec hl

/-- A run that does not go on has no further step. -/
theorem State.Course.going_or_stuck {s t : State} (h : s.Course t) : (∃ n, s.Sends n t) ∨ t.canStep = false := by
  cases h with
  | going h => exact .inl ⟨_, h⟩
  | refused _ _ hseq => exact .inr (canStep_of_not_exec t (by simp [hseq]))
  | failed _ _ _ hseq => exact .inr (canStep_of_not_exec t (by simp [hseq]))
  | hung _ _ _ _ hhung => exact .inr (canStep_of_hung t hhung)

theorem runBlock_course {s : State} (hrun : s.seq ≠ .halted) (n : Nat) : s.Course (State.runBlock n s) := by
  induction n generalizing s with
  | zero => exact .going (sends_zero rfl rfl rfl hrun)
  | succ n ih =>
    cases hcan : s.canStep with
    | false =>
      rw [runBlock_stuck s _ hcan]
      exact .going (sends_zero rfl rfl rfl hrun)
    | true =>
      have hstep := blockStep_course hcan
      rw [runBlock_succ]
      rcases hstep.going_or_stuck with ⟨m, hsends⟩ | hstuck
      · exact hsends.course (blockStep_moves s hcan).2.scans (ih hsends.running)
      · rwa [runBlock_stuck _ n hstuck]

/-- The frame offered last is the only one that can have failed. -/
theorem State.Course.frame_not_ok {s t : State} (h : s.Course t) {k : Nat} (hk : s.draws + k < t.draws)
    (hne : s.frame k ≠ .ok) : t.draws = s.draws + k + 1 ∧
      ((s.frame k = .err ∧ t.seq = .halted ∧ t.faultCode = 0x01 ∧ t.cs = true) ∨
        (s.frame k = .never ∧ t.seq = .exec ∧ t.hung = true ∧ t.faultCode = s.faultCode)) := by
  have hlast {n : Nat} (hok : s.FramesOk n) : n ≤ k := Nat.not_lt.1 fun hlt => hne (hok k hlt)
  cases h with
  | going h =>
    have := hlast h.ok
    have := h.draws
    omega
  | refused hok hdraws =>
    have := hlast hok
    omega
  | @failed n hok herr hdraws hseq hcode hcs =>
    have := hlast hok
    obtain rfl : k = n := by omega
    exact ⟨hdraws, .inl ⟨herr, hseq, hcode, hcs⟩⟩
  | @hung n hok hnever hdraws hseq hhung hcode =>
    have := hlast hok
    obtain rfl : k = n := by omega
    exact ⟨hdraws, .inr ⟨hnever, hseq, hhung, hcode⟩⟩

/-- A run of the block that halts has taken `TRANSPORT` at its last frame, or has refused a string. -/
theorem State.Course.halted {s t : State} (h : s.Course t) (hseq : t.seq = .halted) :
    (t.faultCode = 0x01 ∧ ∃ k, t.draws = s.draws + k + 1 ∧ s.frame k = .err) ∨
      (t.faultCode ≠ 0x01 ∧ s.scans = true) := by
  cases h with
  | going h => exact absurd hseq h.running
  | refused _ _ _ hcode hscan => exact .inr ⟨by rw [hcode]; decide, hscan⟩
  | failed _ herr hdraws _ hcode => exact .inl ⟨hcode, _, hdraws, herr⟩
  | hung _ _ _ hexec => simp [hexec] at hseq

theorem State.Latched.finish_course {s : State} (hs : s.Latched) (ops : List Micro) :
    (s.withTodo ops).Course (s.withTodo ops).finish :=
  runBlock_course (by simp [State.withTodo, hs.1]) _

/-- Settles O29: a request whose checks refuse it offers no frame, and of any other the last frame alone can have failed. -/
theorem transportFaultAtErrorFrame : Obligations.TransportFaultAtErrorFrame := by
  intro i s t hs h
  rw [exec_eq_request] at h
  cases hp : plan i s with
  | error c =>
    rw [hp, request_error] at h
    cases h
    have hcode : c.code ≠ 0x01 := mt (code_eq_transport_iff c).1 (plan_error hp).ne_transport
    have hnone {k : Nat} : ¬ s.draws + k < (s.raise c).draws := Nat.not_lt.2 (Nat.le_add_right _ _)
    exact ⟨fun k hk => absurd hk hnone, fun _ hc => absurd hc hcode, fun k hk => absurd hk hnone⟩
  | ok ops =>
    rw [hp, request_eq] at h
    cases h
    have hcourse := hs.finish_course ops
    refine ⟨fun k hk herr => ?_, fun hseq hcode => ?_, fun k hk hnever => ?_⟩
    · obtain ⟨hdraws, ⟨-, hfault⟩ | ⟨hnever, -⟩⟩ := hcourse.frame_not_ok hk fun hok => nomatch herr.symm.trans hok
      · exact ⟨hdraws, hfault⟩
      · cases herr.symm.trans hnever
    · rcases hcourse.halted hseq with ⟨-, hframe⟩ | ⟨hne, -⟩
      · exact hframe
      · exact absurd hcode hne
    · obtain ⟨hdraws, ⟨herr, -⟩ | ⟨-, hhung⟩⟩ := hcourse.frame_not_ok hk fun hok => nomatch hnever.symm.trans hok
      · cases hnever.symm.trans herr
      · exact ⟨hdraws, hhung⟩

/-! ### Faults without a frame (60 R257, R258) -/

/-- `StrLen` reads on to the end of host memory, and faults there (43 R204). -/
theorem strScan_reaches_raise {s : State} (hs : s.Running) (t : Text) (x y n : Nat)
    (hne : ∀ a, t.addr + n ≤ a → a < s.cfg.val.hostMemSize → Mem.read s.mem a ≠ 0) :
    (s.withTodo [.strScan t x y n]).Reaches (s.raise .buffer) := by
  have hstep := blockStep_withTodo_cons hs (op := .strScan t x y n) trivial []
  by_cases hend : s.cfg.val.hostMemSize ≤ t.addr + n
  · exact .of_blockStep (hstep.trans (if_pos hend))
  · have hch := hne _ (Nat.le_refl _) (by omega)
    exact (State.Reaches.of_blockStep (hstep.trans ((if_neg hend).trans (if_neg hch)))).trans
      (strScan_reaches_raise hs t x y (n + 1) fun a ha => hne a (by omega))
termination_by s.cfg.val.hostMemSize - (t.addr + n)

/-- A string with a NUL in host memory is found (43 R204). -/
theorem strScan_expands_of_nul {s : State} (hs : s.Running) (t : Text) (x y : Nat)
    (hnul : ∃ len, t.addr + len < s.cfg.val.hostMemSize ∧ Mem.read s.mem (t.addr + len) = 0) :
    ∃ len, s.Expands [.strScan t x y 0] (bracketed [.strDraw t len 0 x y false]) := by
  obtain ⟨hlt, hzero⟩ := Nat.find_spec hnul
  have hne : ∀ ch ∈ s.memBytes t.addr (Nat.find hnul), ch ≠ 0 := by
    intro ch hch
    obtain ⟨k, hk, rfl⟩ := List.mem_map.1 hch
    have hklt := List.mem_range.1 hk
    exact fun hz => Nat.find_min hnul hklt ⟨by omega, hz⟩
  exact ⟨_, expands_strScan hs t x y (n := 0) (str := s.memBytes t.addr (Nat.find hnul)) (by simp) hne
    (by simpa using hzero) (by simpa using hlt)⟩

/-- Where no string is scanned a request halts with `TRANSPORT` only. -/
theorem State.Latched.finish_code {s : State} (hs : s.Latched) {ops : List Micro} (hfree : hasScan ops = false)
    (hseq : (s.withTodo ops).finish.seq = .halted) : (s.withTodo ops).finish.faultCode = 0x01 := by
  rcases (hs.finish_course ops).halted hseq with ⟨hcode, -⟩ | ⟨-, hscan⟩
  · exact hcode
  · cases hfree.symm.trans hscan

/-- Settles O28: a request's checks raise their fault in its first step, and once its string is found or none is to be
scanned only a frame can fail. -/
theorem preciseFaults : Obligations.PreciseFaults := by
  intro i s t hs h hseq hcode
  rw [exec_eq_request] at h
  cases hp : plan i s with
  | error c =>
    rw [hp, request_error] at h
    cases h
    exact ⟨c, (plan_error hp).ne_transport, rfl⟩
  | ok ops =>
    rw [hp, request_eq] at h
    cases h
    rcases plan_hasScan hp with hfree | ⟨text, x, y, rfl⟩
    · exact absurd (hs.finish_code hfree hseq) hcode
    · by_cases hnul : ∃ len, text.addr + len < s.cfg.val.hostMemSize ∧ Mem.read s.mem (text.addr + len) = 0
      · obtain ⟨len, hfound⟩ := strScan_expands_of_nul hs.running text x y hnul
        have hend : (s.withTodo [.strScan text x y 0]).finish =
            (s.withTodo (bracketed [.strDraw text len 0 x y false])).finish := (hfound []).finish_congr
        rw [show s.start _ = s.withTodo _ from rfl, hend] at hseq hcode
        exact absurd (hs.finish_code rfl hseq) hcode
      · refine ⟨.buffer, nofun, (strScan_reaches_raise hs.running text x y 0 fun a ha hlt hz => hnul ?_).finish_eq
          (canStep_raise s .buffer)⟩
        exact ⟨a - text.addr, by omega, by rwa [Nat.add_sub_cancel' (by omega)]⟩

theorem bufOK_eq_false {c : Config} {a n : Nat} (hn : n ≠ 0) (hend : c.hostMemSize < a + n) : bufOK c a n = false := by
  simp [bufOK, hn, hend]

/-- A DRAW_IMAGE that would draw refuses a buffer that is not inside host memory (43 R197). -/
theorem plan_drawImage_error {s : State} {x y w h : Half} {addr : Word} {w' h' : Nat} (m : Mode)
    (hready : s.pstate = .ready) (hclip : clip s.cfg.val x.toNat y.toNat w.toNat h.toNat = some (w', h'))
    (hdraws : (w' = w.toNat ∧ h' = h.toNat) ∨ s.cfg.val.imageClipMode = .crop)
    (hbuf : bufOK s.cfg.val addr.toNat (2 * w.toNat * h.toNat) = false) :
    plan (.drawImage m x y w h addr) s = .error .buffer := by
  have hskip : ¬ (¬ (w' = w.toNat ∧ h' = h.toNat) ∧ s.cfg.val.imageClipMode = .skip) := by
    rintro ⟨hpart, hskip⟩
    rcases hdraws with hinside | hcrop
    · exact hpart hinside
    · cases hskip.symm.trans hcrop
  refine (whenReady_ready s _ hready).trans ?_
  rw [hclip]
  exact (if_neg hskip).trans (if_pos (by simp [hbuf]))

/-- Settles O26: two requests check their buffer first, and WRITE_STRING reads on to the end of host memory. -/
theorem bufferFault : Obligations.BufferFault := by
  intro s hs
  refine ⟨fun m addr len hlen hend => ?_, fun m x y w h addr w' h' hready hclip hdraws hend => ?_,
    fun m f x y fg bg addr hready hfont hne => ?_⟩
  · have hlen' : len.toNat ≠ 0 := fun hz => hlen (BitVec.eq_of_toNat_eq hz)
    exact exec_error (plan_wrdata_error m (bufOK_eq_false hlen' hend))
  · obtain ⟨hw, hw', -, hh, hh', -⟩ := clip_some hclip
    have hlen : 2 * w.toNat * h.toNat ≠ 0 := Nat.mul_ne_zero (by omega) (by omega)
    exact exec_error (plan_drawImage_error m hready hclip hdraws (bufOK_eq_false hlen hend))
  · have hplan : plan (.writeString m f x y fg bg addr) s = .ok [.strScan (textOf m f fg bg addr) x.toNat y.toNat 0] :=
      (whenReady_ready s _ hready).trans (if_pos hfont)
    rw [exec_eq_request, hplan, request_eq]
    exact congrArg _ ((strScan_reaches_raise hs.running (textOf m f fg bg addr) _ _ 0 hne).finish_eq
      (canStep_raise s .buffer))

end Sys2Proof.Machine

/-! ## How a request ends (70 R296, R299, R300) -/

namespace Sys2Proof.Machine

/-! ### Where no frame hangs (40 R141; 70 R296) -/

/-- From `s` the block has come to `t`, which is not hung, and has offered one frame at most. -/
structure State.OffersAtMostOne (s t : State) : Prop where
  hung : t.hung = false
  next : ∃ m, m ≤ 1 ∧ ∀ k, t.frame k = s.frame (k + m)

theorem offersAtMostOne_of_eq {s t : State} (hhung : t.hung = false) (hbus : t.bus = s.bus)
    (hdraws : t.draws = s.draws) : s.OffersAtMostOne t :=
  ⟨hhung, 0, Nat.zero_le 1, fun k => by simp [State.frame, hbus, hdraws]⟩

section Live

variable {s : State} (hhung : s.hung = false) (hlive : s.frame 0 ≠ .never)
include hhung hlive

/-- A frame that does not hang, and what its agent does next, which offers none. -/
theorem tx_offersAtMostOne (b : Byte) {f : State → State}
    (hf : ∀ u : State, (f u).hung = u.hung ∧ ∀ k, (f u).frame k = u.frame k) : s.OffersAtMostOne (s.tx b f) := by
  rcases tx_cases s b f with ⟨-, h⟩ | ⟨-, h⟩ | ⟨hnever, -⟩
  · rw [h]
    exact ⟨(hf _).1.trans hhung, 1, Nat.le_refl 1, fun k => ((hf _).2 k).trans (frame_popFrame s k)⟩
  · rw [h]
    exact ⟨rfl, 1, Nat.le_refl 1, frame_popFrame s⟩
  · exact absurd hnever hlive

theorem dmaStep_offersAtMostOne (src : Src) (n i : Nat) : s.OffersAtMostOne (s.dmaStep src n i) := by
  unfold State.dmaStep
  split
  · exact tx_offersAtMostOne hhung hlive _ fun _ => ⟨rfl, fun _ => rfl⟩
  · exact offersAtMostOne_of_eq hhung rfl rfl

theorem seqStep_offersAtMostOne (op : Micro) (rest : List Micro) : s.OffersAtMostOne (s.seqStep op rest) := by
  cases op with
  | tx src k =>
    have hframe : (s.withTodo rest).OffersAtMostOne ((s.withTodo rest).tx (s.srcByte src k) id) :=
      tx_offersAtMostOne (s := s.withTodo rest) hhung hlive _ fun _ => ⟨rfl, fun _ => rfl⟩
    exact ⟨hframe.hung, hframe.next⟩
  | strScan t x y n =>
    rcases strScanStep_cases (s.withTodo rest) rest t x y n with h | ⟨ops, -, h⟩
    · rw [show s.seqStep (.strScan t x y n) rest = _ from h]
      exact offersAtMostOne_of_eq rfl rfl rfl
    · rw [show s.seqStep (.strScan t x y n) rest = _ from h]
      exact offersAtMostOne_of_eq hhung rfl rfl
  | strDraw t len i x y a =>
    obtain ⟨ops, -, h⟩ := strDrawStep_cases (s.withTodo rest) rest t len i x y a
    rw [show s.seqStep (.strDraw t len i x y a) rest = _ from h]
    exact offersAtMostOne_of_eq hhung rfl rfl
  | _ => exact offersAtMostOne_of_eq hhung rfl rfl

end Live

theorem blockStep_offersAtMostOne {s : State} (hcan : s.canStep = true) (hlive : s.frame 0 ≠ .never) :
    s.OffersAtMostOne s.blockStep := by
  obtain ⟨-, hhung, -⟩ := canStep_running hcan
  rcases blockStep_cases s hcan with ⟨src, n, i, -, hs⟩ | ⟨-, -, hs⟩ | ⟨-, -, -, hs⟩ | ⟨-, -, op, rest, -, hs⟩
  · exact hs ▸ dmaStep_offersAtMostOne hhung hlive src n i
  · exact hs ▸ offersAtMostOne_of_eq hhung rfl rfl
  · exact hs ▸ offersAtMostOne_of_eq hhung rfl rfl
  · exact hs ▸ seqStep_offersAtMostOne hhung hlive op rest

/-- `n` steps offer `n` frames at most, so a run hangs only at one of them. -/
theorem runBlock_hung_eq_false {s : State} {n : Nat} (hhung : s.hung = false) (hlive : s.BusLive n) :
    (State.runBlock n s).hung = false := by
  induction n generalizing s with
  | zero => exact hhung
  | succ n ih =>
    cases hcan : s.canStep with
    | false => rwa [runBlock_stuck s _ hcan]
    | true =>
      obtain ⟨hhung', m, hm, hnext⟩ := blockStep_offersAtMostOne hcan (hlive 0 n.succ_pos)
      rw [runBlock_succ]
      refine ih hhung' fun k hk => ?_
      rw [hnext]
      exact hlive (k + m) (by omega)

/-! ### The agents when the request is over (60 R267; 70 R300) -/

/-- What a run of the block keeps from the start of a request: it has begun, its steps and burst are admissible, at most
one agent runs, and none does when the request is over. -/
structure State.InOrder (s : State) : Prop where
  begun      : s.Begun
  admissible : s.Admissible
  oneAgent   : s.OneAgent
  quiet      : s.seq ≠ .exec → s.dma = .idle ∧ s.timer = .idle

/-- The step that ends a request is taken with the delay timer idle. -/
theorem State.InOrder.quiet_blockStep {s : State} (h : s.InOrder) (hcan : s.canStep = true)
    (hseq : s.blockStep.seq ≠ .exec) : s.blockStep.dma = .idle ∧ s.blockStep.timer = .idle := by
  obtain ⟨hexec, -, -⟩ := canStep_running hcan
  obtain ⟨-, -, ⟨-, hd, ht, hs⟩ | ⟨bus, draws, c, hs⟩⟩ :=
    blockTurn_seq_ne (blockTurn_eq_blockStep h.begun h.admissible) (by rwa [hexec])
  · rw [hs]
    exact ⟨hd, ht⟩
  · cases ht : s.timer with
    | idle =>
      rw [hs]
      exact ⟨rfl, ht⟩
    | waiting ms =>
      have hd : s.dma = .idle := h.oneAgent.resolve_right (by simp [ht])
      have hstep := (delayHoldsUntilTimer s hcan hd).2 ms ht
      exact absurd (hstep ▸ hexec) hseq

theorem State.InOrder.blockStep {s : State} (h : s.InOrder) : s.blockStep.InOrder := by
  cases hcan : s.canStep with
  | false => rwa [blockStep_stuck s hcan]
  | true => exact ⟨h.begun.blockStep, h.admissible.blockStep, h.oneAgent.blockStep, h.quiet_blockStep hcan⟩

theorem State.InOrder.runBlock {s : State} (h : s.InOrder) (n : Nat) : (State.runBlock n s).InOrder := by
  induction n generalizing s with
  | zero => exact h
  | succ n ih =>
    rw [runBlock_succ]
    exact ih h.blockStep

theorem State.Latched.start_inOrder {s : State} (hs : s.Latched) (i : Instr) : (s.start (plan i s)).InOrder := by
  obtain ⟨hexec, -, hd, ht, -⟩ := hs
  have hagents : (s.start (plan i s)).dma = .idle ∧ (s.start (plan i s)).timer = .idle := by
    cases plan i s with
    | error c => exact ⟨rfl, ht⟩
    | ok ops => exact ⟨hd, ht⟩
  exact ⟨start_begun s _, start_admissible i hd, .inl hagents.1, fun _ => hagents⟩

/-- Unless its frame hangs, a begun request with no further step is over. -/
theorem State.InOrder.seq_ne_exec {s : State} (h : s.InOrder) (hhung : s.hung = false) (hstuck : s.canStep = false) :
    s.seq ≠ .exec := by
  intro hexec
  have hcan := canStep_of_reads hexec hhung (h.begun hexec) fun _ => h.admissible.nextRead_lt
  simp [hcan] at hstuck

theorem start_hung (s : State) (hhung : s.hung = false) (p : Plan) : (s.start p).hung = false := by
  cases p with
  | error c => rfl
  | ok ops => exact hhung

/-- The start of a request offers no frame. -/
theorem start_frame (s : State) (p : Plan) (k : Nat) : (s.start p).frame k = s.frame k := by
  cases p <;> rfl

/-- Under `BusLive` a request ends: `SEQ` leaves `EXEC`, and both agents are idle (70 R299). -/
theorem State.Latched.finish_over {s : State} (hs : s.Latched) (i : Instr)
    (hlive : s.BusLive (s.start (plan i s)).work) :
    (s.start (plan i s)).finish.seq ≠ .exec ∧ (s.start (plan i s)).finish.dma = .idle ∧
      (s.start (plan i s)).finish.timer = .idle := by
  have hin : (s.start (plan i s)).finish.InOrder := (hs.start_inOrder i).runBlock _
  obtain ⟨-, -, -, -, hhung⟩ := hs
  have hhung' : (s.start (plan i s)).finish.hung = false :=
    runBlock_hung_eq_false (start_hung s hhung _) fun k hk => start_frame s _ k ▸ hlive k hk
  have hseq := hin.seq_ne_exec hhung' (runBlock_stuck_of_work_le (Nat.le_refl _))
  exact ⟨hseq, hin.quiet hseq⟩

/-- Settles O57: the bound `State.work` falls with each step; under `BusLive` no frame hangs, and nothing else leaves a
begun request in `EXEC` without a step. -/
theorem requestsEnd : Obligations.RequestsEnd := by
  refine ⟨fun s => runBlock_stuck_of_work_le (Nat.le_refl s.work), fun i s hs hlive => ?_⟩
  have hexec : exec i s = .next (s.start (plan i s)).finish := exec_eq_request s i
  obtain ⟨hseq, hd, ht⟩ := hs.finish_over i hlive
  obtain ⟨-, -, -, -, -, hhost, -⟩ := requestsLeaveHostSideAlone i s _ hexec
  refine ⟨_, hexec, ?_, fun hreads => ⟨hseq, hd, ht, hhost ▸ hreads⟩⟩
  cases hend : (s.start (plan i s)).finish.seq with
  | idle => exact .inl rfl
  | exec => exact absurd hend hseq
  | halted => exact .inr rfl

/-! ## Reset (70 R280 to R282; 10 R44) -/

theorem setRST_true_eq (s : State) :
    s.setRST true = { s with rst := true, trace := s.trace ++ if s.rst then [] else [.rstHigh] } := by
  cases hrst : s.rst <;> simp [State.setRST, hrst]

/-- A write of `CTRL` that takes effect (10 R44). -/
theorem writeReg_ctrl (s : State) (v : Word) : s.writeReg 0x20 v = if v.getLsbD 0 then s.resetBlock else s := rfl

/-- Settles O34: `SetCS(1)`, `SetRST(1)`, then the power-on values; the two sources are a turn of the hardware and the
write of `CTRL`, which only a running request holds. -/
theorem resetRestoresResetValues : Obligations.ResetRestoresResetValues := by
  refine ⟨fun s => ?_, fun s rest hsched => step_hwReset s rest hsched, fun s rest v more hne hsched hhost => ?_⟩
  · rw [State.resetBlock, setCS_true_eq, setRST_true_eq]
    rfl
  · rw [step_hostWrite_accepted (off := 0x20) hsched (by decide) rfl (fun hexec => absurd hexec hne) hhost,
      writeReg_ctrl]

end Sys2Proof.Machine
